-- ==== Sys2Proof/Word.lean ====
section
/-!
DEFINITION. The two data widths of the block: every register, command word, operand, response and table
entry is a 32-bit word, and a message is made of 8-bit bytes (spec/00_scope.md section 6).
-/
namespace Sys2Proof

/-- A 32-bit word: CRC, STATUS, RSP, operand A, response Y, a command word, a table entry (00_scope.md section 6). -/
abbrev Word := BitVec 32

/-- A message byte or a table index (00_scope.md section 6). -/
abbrev Byte := BitVec 8

end Sys2Proof
end

