-- ==== Sys2Proof/Config.lean ====
section
/-!
DEFINITION. What is fixed for the block (spec/00_scope.md rule R4). The spec leaves no behaviour open
(30_encoding.md rule R49, 93_implementation_defined.md I5 to I10), so there is no free value here. The one
open parameter, CMD_LATENCY, is an argument of the clocked model (Machine/Port.lean), as
92_eei_decisions.md says of a parameter marked OPEN.
-/
namespace Sys2Proof.Config

/-- POLY: the generator polynomial without its implicit x^32 term (10_state.md rule R16, 00_scope.md rule R4). -/
def poly : Word := 0x04C11DB7#32

/-- The initial value of a CRC computation (00_scope.md rule R4). -/
def initialValue : Word := 0x00000000#32

end Sys2Proof.Config
end

