-- ==== Sys2Proof/Syntax.lean ====
section
/-!
DEFINITION. The syntax of the block: the raw command a host issues (30_encoding.md section 2) and the thirteen
legal commands (rule R48), one constructor per row of spec/opcode_table.json.
-/
namespace Sys2Proof

/-- What the host issues: a command word and its operand A, both 32 bits (30_encoding.md section 2, rules R45 and
R46). Every pair is a command; the pairs whose word is not in rule R48 are the illegal commands. -/
structure Command where
  /-- the command word: RSV in bits 31:8, OP in bits 7:0 (rule R45) -/
  word : Word
  /-- operand A (rule R46) -/
  arg : Word
  deriving DecidableEq, Repr

/-- The thirteen legal commands (30_encoding.md rule R48). Every command is accompanied by a whole 32-bit operand
A (rule R46), so every constructor holds it; which bits of A a command uses is said by its meaning
(log entry 10). -/
inductive Instr where
  /-- 40_control.md rule R60; A is ignored -/
  | nop (a : Word)
  /-- 40_control.md rule R61; A is ignored -/
  | init (a : Word)
  /-- 40_control.md rule R62; A[31:0] is the new accumulator value -/
  | load (a : Word)
  /-- 40_control.md rule R63; A is ignored -/
  | read (a : Word)
  /-- 41_update.md rule R73; lane 0 of A is absorbed -/
  | upd1 (a : Word)
  /-- 41_update.md rule R74; lanes 0 and 1 of A are absorbed -/
  | upd2 (a : Word)
  /-- 41_update.md rule R75; lanes 0 to 2 of A are absorbed -/
  | upd3 (a : Word)
  /-- 41_update.md rule R76; all four lanes of A are absorbed -/
  | upd4 (a : Word)
  /-- 42_check.md rule R85; A[31:0] is the expected CRC -/
  | check (a : Word)
  /-- 43_status_and_id.md rule R90; A[7:0] is the table index -/
  | lutrd (a : Word)
  /-- 43_status_and_id.md rule R91; A is ignored -/
  | poly (a : Word)
  /-- 43_status_and_id.md rule R92; A is ignored -/
  | stat (a : Word)
  /-- 43_status_and_id.md rule R93; A is ignored -/
  | clrst (a : Word)
  deriving DecidableEq, Repr

end Sys2Proof
end

