-- ==== Sys2Proof/WellFormed.lean ====
section
/-!
DEFINITION. Which raw commands are legal (30_encoding.md rules R45, R47, R48): the reserved field is zero and the
opcode is assigned. An `Instr` needs no check: no operand value is out of range (rule R46, 60_exceptions.md R100).
-/
namespace Sys2Proof

/-- The thirteen assigned opcodes, in the order of 30_encoding.md rule R48. -/
def assignedOpcodes : List Nat := [0x00, 0x01, 0x02, 0x03, 0x08, 0x09, 0x0A, 0x0B, 0x10, 0x18, 0x19, 0x20, 0x21]

/-- First check: bits 31:8 must be zero in every legal command (30_encoding.md rules R45 and R47). -/
def Command.rsvClear (c : Command) : Bool := c.word &&& 0xFFFFFF00#32 == 0#32

/-- Second check: bits 7:0 are one of the thirteen assigned opcodes (30_encoding.md rules R48 and R49). -/
def Command.opAssigned (c : Command) : Bool := assignedOpcodes.contains (c.word &&& 0x000000FF#32).toNat

/-- A command is well formed exactly when it is legal (30_encoding.md rules R47 to R49). -/
abbrev Command.WellFormed (c : Command) : Prop := c.rsvClear = true ∧ c.opAssigned = true

end Sys2Proof
end

