-- ==== Sys2Proof/Decode.lean ====
section
/-!
DEFINITION. Decoding a command, total on every pair of words and rejecting by name, and the encoder
(spec/30_encoding.md sections 2 to 4). The block fetches no bytes (20_memory.md rule R35): the unit of decoding
is the pair (command word, operand A) on the command port.
-/
namespace Sys2Proof

/-- Why a command word is not one of the thirteen of 30_encoding.md rule R48. Either reason makes the command the
illegal command of 60_exceptions.md rule R102. -/
inductive DecodeError where
  /-- some bit of RSV is set (30_encoding.md rule R47) -/
  | reservedBitsSet
  /-- RSV is zero and OP is not assigned (30_encoding.md rule R49) -/
  | unassignedOpcode
  deriving DecidableEq, Repr

/-- The field OP of a command word, bits 7:0 (30_encoding.md rule R45). -/
def opcodeField (w : Word) : Byte := w.extractLsb' 0 8

/-- The field RSV of a command word, bits 31:8 (30_encoding.md rule R45). -/
def reservedField (w : Word) : BitVec 24 := w.extractLsb' 8 24

/-- The command an assigned opcode selects (30_encoding.md rule R48); operand A is carried along whole. -/
def decodeOpcode (op : Byte) (a : Word) : Option Instr :=
  if op = 0x00#8 then some (.nop a)
  else if op = 0x01#8 then some (.init a)
  else if op = 0x02#8 then some (.load a)
  else if op = 0x03#8 then some (.read a)
  else if op = 0x08#8 then some (.upd1 a)
  else if op = 0x09#8 then some (.upd2 a)
  else if op = 0x0A#8 then some (.upd3 a)
  else if op = 0x0B#8 then some (.upd4 a)
  else if op = 0x10#8 then some (.check a)
  else if op = 0x18#8 then some (.lutrd a)
  else if op = 0x19#8 then some (.poly a)
  else if op = 0x20#8 then some (.stat a)
  else if op = 0x21#8 then some (.clrst a)
  else none

/-- Decoding a command (30_encoding.md rules R45, R47, R48 and R49): the reserved field first, whatever OP says. -/
def decode (c : Command) : Except DecodeError Instr :=
  if reservedField c.word = 0#24 then
    match decodeOpcode (opcodeField c.word) c.arg with
    | some i => .ok i
    | none => .error .unassignedOpcode
  else .error .reservedBitsSet

/-- The opcode of a command (30_encoding.md rule R48, column OP). -/
def Instr.opcode : Instr → Byte
  | .nop _ => 0x00#8
  | .init _ => 0x01#8
  | .load _ => 0x02#8
  | .read _ => 0x03#8
  | .upd1 _ => 0x08#8
  | .upd2 _ => 0x09#8
  | .upd3 _ => 0x0A#8
  | .upd4 _ => 0x0B#8
  | .check _ => 0x10#8
  | .lutrd _ => 0x18#8
  | .poly _ => 0x19#8
  | .stat _ => 0x20#8
  | .clrst _ => 0x21#8

/-- The operand A that accompanies a command (30_encoding.md rule R46). -/
def Instr.operand : Instr → Word
  | .nop a => a
  | .init a => a
  | .load a => a
  | .read a => a
  | .upd1 a => a
  | .upd2 a => a
  | .upd3 a => a
  | .upd4 a => a
  | .check a => a
  | .lutrd a => a
  | .poly a => a
  | .stat a => a
  | .clrst a => a

/-- The encoder: the command word is exactly OP extended with zeros (30_encoding.md rule R48), beside operand A. -/
def encode (i : Instr) : Command := { word := i.opcode.setWidth 32, arg := i.operand }

/-- The command whose bits, numbered as spec/opcode_table.json numbers them, are the low `nbits` bits of `w`: the
command word in bits 31:0 and operand A in bits 63:32; every bit above `nbits` is zero (log entry 13). -/
def tableCommand (nbits w : Nat) : Command :=
  { word := BitVec.ofNat 32 (w % 2 ^ nbits), arg := BitVec.ofNat 32 ((w % 2 ^ nbits) / 2 ^ 32) }

/-- What the decoder reads from an instruction whose bits are `w`; none where it rejects. -/
def decodeTableWord (nbits w : Nat) : Option Instr :=
  match decode (tableCommand nbits w) with
  | .ok i => some i
  | .error _ => none

end Sys2Proof
end

