-- ==== Sys2Proof/Machine/Flags.lean ====
section
/-!
DEFINITION. The fields of STATUS and every computation on them (spec/10_state.md rules R12 and R13,
60_exceptions.md rules R102 and R103, 42_check.md rule R85). All functions act on the stored word.
-/
namespace Sys2Proof.Machine

/-- STATUS bit 0, CHK (10_state.md rule R12). -/
def chkMask : Word := 0x00000001#32
/-- STATUS bit 1, MATCH (10_state.md rule R12). -/
def matchMask : Word := 0x00000002#32
/-- STATUS bit 2, MISM, sticky (10_state.md rule R12). -/
def mismMask : Word := 0x00000004#32
/-- STATUS bit 3, ILL, sticky (10_state.md rule R12). -/
def illMask : Word := 0x00000008#32
/-- The four defined fields; bits 31:4 are reserved (10_state.md rules R12 and R13). -/
def statusMask : Word := 0x0000000F#32

/-- STATUS as the host reads it: bits 31:4 read as zero in every state (10_state.md rule R13, log entry 5). -/
def statusRead (st : Word) : Word := st &&& statusMask

/-- Field CHK: a CHECK has executed since CRC was last written (10_state.md rule R12). -/
def chk (st : Word) : Bool := st.getLsbD 0
/-- Field MATCH: the last CHECK found CRC equal to its operand, and CRC has not changed since. -/
def matched (st : Word) : Bool := st.getLsbD 1
/-- Field MISM: at least one CHECK has mismatched since the last CLRST or reset. -/
def mism (st : Word) : Bool := st.getLsbD 2
/-- Field ILL: at least one illegal command has been issued since the last CLRST or reset. -/
def ill (st : Word) : Bool := st.getLsbD 3

/-- STATUS.CHK <- 0 and STATUS.MATCH <- 0, as every command that writes CRC does (10_state.md rule R12). -/
def clearCheck (st : Word) : Word := st &&& ~~~(chkMask ||| matchMask)

/-- `signal MISMATCH`: STATUS.MISM <- 1 (60_exceptions.md rule R103). -/
def signalMismatch (st : Word) : Word := st ||| mismMask

/-- `signal ILLEGAL`: STATUS.ILL <- 1 (60_exceptions.md rule R102). -/
def signalIllegal (st : Word) : Word := st ||| illMask

/-- What CHECK does to STATUS when CRC is `crc` and the operand is `a` (42_check.md rule R85). -/
def checkStatus (crc a st : Word) : Word :=
  if crc = a then (st ||| chkMask) ||| matchMask
  else signalMismatch ((st ||| chkMask) &&& ~~~matchMask)

/-- CLRST and reset: CHK, MATCH, MISM and ILL all cleared, bits 31:4 written with zero (43_status_and_id.md rule
R93, 10_state.md rule R13). -/
def clearedStatus : Word := 0x00000000#32

end Sys2Proof.Machine
end

