-- ==== Sys2Proof/Machine/State.lean ====
section
/-!
DEFINITION. The state of the block and of the host that drives it, the reset state, and the reasons a step can
stop (there are none). spec/10_state.md rule R10 lists the block's state: CRC, STATUS and, at the pin level, RSP;
rule R19 adds whether a command is in flight, rule R44 the output rsp_valid. LUT and POLY are constants of the
model, not fields (rule R10): Machine/Ops.lean and Config.lean hold them.
-/
namespace Sys2Proof.Machine

/-- A command that has been accepted and has not completed (30_encoding.md rule R44, 10_state.md rule R19). -/
structure InFlight where
  /-- the command sampled at the acceptance edge -/
  command : Command
  /-- how many edges pass without effect before the completion edge (CMD_LATENCY - 1 at acceptance) -/
  wait : Nat
  deriving DecidableEq, Repr

/-- The whole state. The first five fields are the block's; `program` is the host's (log entry 1). -/
structure State where
  /-- CRC, the accumulator (10_state.md rule R11) -/
  crc : Word
  /-- STATUS as stored; it is read through `readStatus` (10_state.md rules R12 and R13, log entry 5) -/
  status : Word
  /-- RSP, the response Y of the most recently completed command (10_state.md rule R17) -/
  rsp : Word
  /-- rsp_valid: the last edge completed a command (30_encoding.md rule R44) -/
  rspValid : Bool
  /-- the command in flight, if any (30_encoding.md rule R44, 10_state.md rule R19) -/
  inFlight : Option InFlight
  /-- the pairs the host has yet to issue, first to be issued first (00_scope.md rule R6) -/
  program : List Command
  deriving DecidableEq, Repr

/-- Why the machine could stop with a fault: it never does. The type has no constructor because the step never
faults (00_scope.md rule R5) and the block takes no traps (60_exceptions.md rule R101). Safe: nothing is left out
(log entry 12). -/
inductive Fault where
  deriving DecidableEq, Repr

/-- Why the machine could refuse a command. -/
inductive Refusal where
  /-- Raised only by an arm of `exec` for a command that has no meaning yet; no arm raises it, because every
  command is modelled and the step never refuses (00_scope.md rule R5). Safe: it would stop the run. -/
  | notModelled (mnemonic : String)
  deriving DecidableEq, Repr

/-- The state after reset (70_reset_and_hazards.md rule R115): CRC, STATUS and RSP are zero, rsp_valid is 0, no
command is in flight. The host has nothing to issue until a program is given to it (log entry 3). -/
def State.reset : State :=
  { crc := 0x00000000#32
    status := 0x00000000#32
    rsp := 0x00000000#32
    rspValid := false
    inFlight := none
    program := [] }

end Sys2Proof.Machine
end

