-- ==== Sys2Proof/Machine/Ops.lean ====
section
/-!
DEFINITION. The operations the meanings share: the CRC step and the lookup table (spec/10_state.md rule R15,
41_update.md rules R70 and R71), writing CRC, giving a response, reading and writing STATUS, and the illegal
command (60_exceptions.md rule R102), which is this block's whole answer to an illegal word: it has no trap, no
exception entry and no return (rule R101).
-/
namespace Sys2Proof.Machine

/-- `Step`: one bit of the CRC, most significant bit out first (10_state.md rule R15). -/
def crcStep (r : Word) : Word :=
  if r.getLsbD 31 then (r <<< 1) ^^^ Config.poly else r <<< 1

/-- `Step` applied n times (10_state.md rule R15). -/
def crcSteps : Nat → Word → Word
  | 0, r => r
  | n + 1, r => crcSteps n (crcStep r)

/-- LUT[i], the read-only table of 256 words (10_state.md rules R14 and R15, 20_memory.md rule R25). -/
def lut (i : Byte) : Word := crcSteps 8 (i.setWidth 32 <<< 24)

/-- `Absorb(c, b)`: the accumulator c extended by the byte b, by the table (41_update.md rule R70). -/
def absorb (c : Word) (b : Byte) : Word :=
  (c <<< 8) ^^^ lut ((c >>> 24 ^^^ b.setWidth 32).extractLsb' 0 8)

/-- `crc_from(c, s)`: Absorb folded over the bytes of s in order, from c (41_update.md rule R78). -/
def absorbAll (c : Word) (bytes : List Byte) : Word := bytes.foldl absorb c

/-- CRC <- v, with what every command that writes CRC does to STATUS (10_state.md rule R12). -/
def writeCrc (v : Word) (s : State) : State := { s with crc := v, status := clearCheck s.status }

/-- STATUS as the host reads it (10_state.md rules R12 and R13). -/
def readStatus (s : State) : Word := statusRead s.status

/-- STATUS <- v (10_state.md rule R12). -/
def writeStatus (v : Word) (s : State) : State := { s with status := v }

/-- Y <- v: RSP takes the response and rsp_valid is raised (10_state.md rule R17, 30_encoding.md rule R44). -/
def respond (y : Word) (s : State) : State := { s with rsp := y, rspValid := true }

/-- An update command: the bytes are absorbed in order, CHK and MATCH are cleared, Y is the new CRC (41_update.md
rules R73 to R76). -/
def update (bytes : List Byte) (s : State) : State :=
  respond (absorbAll s.crc bytes) (writeCrc (absorbAll s.crc bytes) s)

/-- The illegal command: STATUS.ILL <- 1, Y <- 0, nothing else changes (60_exceptions.md rule R102). -/
def illegalCommand (s : State) : State :=
  respond 0x00000000#32 (writeStatus (signalIllegal s.status) s)

end Sys2Proof.Machine
end

