-- ==== Sys2Proof/Machine/Check.lean ====
section
/-!
DEFINITION. The check command CHECK (spec/42_check.md).
-/
namespace Sys2Proof.Machine

/-- CHECK (42_check.md rule R85): STATUS records the comparison of CRC with A, Y is the syndrome CRC ^ A, and CRC is
not changed. -/
def execCheck (a : Word) (s : State) : Host.Outcome State Fault Refusal :=
  .next (respond (s.crc ^^^ a) (writeStatus (checkStatus s.crc a s.status) s))

end Sys2Proof.Machine
end

