-- ==== Sys2Proof/Machine/Control.lean ====
section
/-!
DEFINITION. The control commands NOP, INIT, LOAD and READ (spec/40_control.md).
-/
namespace Sys2Proof.Machine

/-- NOP (40_control.md rule R60): Y <- CRC. -/
def execNop (_a : Word) (s : State) : Host.Outcome State Fault Refusal :=
  .next (respond s.crc s)

/-- INIT (40_control.md rule R61): CRC <- the initial value, CHK and MATCH cleared, Y <- 0. -/
def execInit (_a : Word) (s : State) : Host.Outcome State Fault Refusal :=
  .next (respond 0x00000000#32 (writeCrc Config.initialValue s))

/-- LOAD (40_control.md rule R62): CRC <- A, CHK and MATCH cleared, Y <- A. -/
def execLoad (a : Word) (s : State) : Host.Outcome State Fault Refusal :=
  .next (respond a (writeCrc a s))

/-- READ (40_control.md rule R63): Y <- CRC. -/
def execRead (_a : Word) (s : State) : Host.Outcome State Fault Refusal :=
  .next (respond s.crc s)

end Sys2Proof.Machine
end

