-- ==== Sys2Proof/Machine/Operands.lean ====
section
/-!
DEFINITION. The forms in which a command uses operand A (spec/30_encoding.md rule R46, 20_memory.md rule R29): all
32 bits, n byte lanes, an 8-bit index, or nothing; and the packing of bytes into lanes (30_encoding.md rule R53).
-/
namespace Sys2Proof.Machine

/-- Lane k of operand A is A[8k+7:8k] (20_memory.md rule R29). -/
def lane (a : Word) (k : Nat) : Byte := a.extractLsb' (8 * k) 8

/-- The first n lanes of operand A, lane 0 first: the bytes UPDn absorbs, in their order (20_memory.md rule R29). -/
def lanes : Nat → Word → List Byte
  | 0, _ => []
  | n + 1, a => lanes n a ++ [lane a n]

/-- The table index of LUTRD, A[7:0] (43_status_and_id.md rule R90). -/
def tableIndex (a : Word) : Byte := a.extractLsb' 0 8

/-- The bits of operand A a command uses (30_encoding.md rules R46 and R48, column A used). -/
def operandMask : Instr → Word
  | .nop _ => 0x00000000#32
  | .init _ => 0x00000000#32
  | .load _ => 0xFFFFFFFF#32
  | .read _ => 0x00000000#32
  | .upd1 _ => 0x000000FF#32
  | .upd2 _ => 0x0000FFFF#32
  | .upd3 _ => 0x00FFFFFF#32
  | .upd4 _ => 0xFFFFFFFF#32
  | .check _ => 0xFFFFFFFF#32
  | .lutrd _ => 0x000000FF#32
  | .poly _ => 0x00000000#32
  | .stat _ => 0x00000000#32
  | .clrst _ => 0x00000000#32

/-- A whole operand from up to four bytes, the first in lane 0, unused lanes zero (30_encoding.md rule R53). -/
def packLanes : List Byte → Word
  | [] => 0#32
  | b :: bs => b.setWidth 32 ||| (packLanes bs <<< 8)

/-- The message bytes a command absorbs: the lanes of an update command, nothing for any other (41_update.md). -/
def messageBytes : Instr → List Byte
  | .nop _ => []
  | .init _ => []
  | .load _ => []
  | .read _ => []
  | .upd1 a => lanes 1 a
  | .upd2 a => lanes 2 a
  | .upd3 a => lanes 3 a
  | .upd4 a => lanes 4 a
  | .check _ => []
  | .lutrd _ => []
  | .poly _ => []
  | .stat _ => []
  | .clrst _ => []

end Sys2Proof.Machine
end

