-- ==== Sys2Proof/Machine/Status.lean ====
section
/-!
DEFINITION. The table, identity and status commands LUTRD, POLY, STAT and CLRST (spec/43_status_and_id.md).
-/
namespace Sys2Proof.Machine

/-- LUTRD (43_status_and_id.md rule R90): Y <- LUT[A[7:0]]. -/
def execLutrd (a : Word) (s : State) : Host.Outcome State Fault Refusal :=
  .next (respond (lut (tableIndex a)) s)

/-- POLY (43_status_and_id.md rule R91): Y <- the generator polynomial. -/
def execPoly (_a : Word) (s : State) : Host.Outcome State Fault Refusal :=
  .next (respond Config.poly s)

/-- STAT (43_status_and_id.md rule R92): Y <- STATUS. -/
def execStat (_a : Word) (s : State) : Host.Outcome State Fault Refusal :=
  .next (respond (readStatus s) s)

/-- CLRST (43_status_and_id.md rule R93): Y <- STATUS before clearing, then STATUS <- 0. -/
def execClrst (_a : Word) (s : State) : Host.Outcome State Fault Refusal :=
  .next (respond (readStatus s) (writeStatus clearedStatus s))

end Sys2Proof.Machine
end

