-- ==== Sys2Proof/Machine/Update.lean ====
section
/-!
DEFINITION. The update commands UPD1 to UPD4 (spec/41_update.md section 2): the first n lanes of A, lane 0 first.
-/
namespace Sys2Proof.Machine

/-- UPD1 (41_update.md rule R73). -/
def execUpd1 (a : Word) (s : State) : Host.Outcome State Fault Refusal := .next (update (lanes 1 a) s)

/-- UPD2 (41_update.md rule R74). -/
def execUpd2 (a : Word) (s : State) : Host.Outcome State Fault Refusal := .next (update (lanes 2 a) s)

/-- UPD3 (41_update.md rule R75). -/
def execUpd3 (a : Word) (s : State) : Host.Outcome State Fault Refusal := .next (update (lanes 3 a) s)

/-- UPD4 (41_update.md rule R76). -/
def execUpd4 (a : Word) (s : State) : Host.Outcome State Fault Refusal := .next (update (lanes 4 a) s)

end Sys2Proof.Machine
end

