-- ==== Sys2Proof/Machine/Dispatch.lean ====
section
/-!
DEFINITION. One arm per command (spec/30_encoding.md rule R48).
-/
namespace Sys2Proof.Machine

/-- The effect of a legal command, as its rule gives it. -/
def exec (i : Instr) (s : State) : Host.Outcome State Fault Refusal :=
  match i with
  | .nop a => Sys2Proof.Machine.execNop a s
  | .init a => Sys2Proof.Machine.execInit a s
  | .load a => Sys2Proof.Machine.execLoad a s
  | .read a => Sys2Proof.Machine.execRead a s
  | .upd1 a => Sys2Proof.Machine.execUpd1 a s
  | .upd2 a => Sys2Proof.Machine.execUpd2 a s
  | .upd3 a => Sys2Proof.Machine.execUpd3 a s
  | .upd4 a => Sys2Proof.Machine.execUpd4 a s
  | .check a => Sys2Proof.Machine.execCheck a s
  | .lutrd a => Sys2Proof.Machine.execLutrd a s
  | .poly a => Sys2Proof.Machine.execPoly a s
  | .stat a => Sys2Proof.Machine.execStat a s
  | .clrst a => Sys2Proof.Machine.execClrst a s

end Sys2Proof.Machine
end

