-- ==== Sys2Proof/Machine/Perform.lean ====
section
/-!
DEFINITION. Performing one command, legal or not (spec/00_scope.md rule R5), and fetching the next one.
-/
namespace Sys2Proof.Machine

/-- The block's step for one command: a legal one has the effect of its rule, every other one is the illegal command
(00_scope.md rule R5, 30_encoding.md rule R49, 60_exceptions.md rule R102). -/
def perform (c : Command) (s : State) : Host.Outcome State Fault Refusal :=
  match decode c with
  | .ok i => exec i s
  | .error _ => .next (illegalCommand s)

/-- The command to be performed next and the state without it: the one in flight, if any, else the next pair the host
issues (00_scope.md rules R5 and R6, 20_memory.md rule R33); none if the host issues nothing. -/
def fetch (s : State) : Option (Command × State) :=
  match s.inFlight with
  | some f => some (f.command, { s with inFlight := none })
  | none =>
    match s.program with
    | [] => none
    | c :: cs => some (c, { s with program := cs })

/-- No command is performed: rsp_valid falls and nothing else changes (30_encoding.md rule R44, 70_reset_and_hazards.md
rule R119, log entry 2). -/
def idle (s : State) : State := { s with rspValid := false }

/-- The state with `c` as the next command to be performed (log entry 3). -/
def issueNext (c : Command) (s : State) : State := { s with inFlight := none, program := c :: s.program }

end Sys2Proof.Machine
end

