-- ==== Sys2Proof/Machine/Step.lean ====
section
/-!
DEFINITION. One step of the machine: exactly one command, atomically and in issue order (spec/00_scope.md rule R5,
20_memory.md rules R32 and R33). The block has no step of its own, so with no command to perform nothing happens.
-/
namespace Sys2Proof.Machine

/-- One command of the host is performed (00_scope.md rule R5). -/
def step (s : State) : Host.Outcome State Fault Refusal :=
  match fetch s with
  | some (c, t) => perform c t
  | none => .next (idle s)

/-- `s` with the command of an opcode-table word as the very next command to be performed (log entries 3 and 13). -/
def State.withFetchWord (s : State) (nbits w : Nat) : State := issueNext (tableCommand nbits w) s

end Sys2Proof.Machine
end

