-- ==== Sys2Proof/Machine/Asm.lean ====
section
/-!
DEFINITION. The assembler of the block: its lines, what each assembles to, and the text a line is read from
(spec/30_encoding.md rules R52 and R53). A text is a list of characters. Where R52 leaves the text open the reader
refuses the line (log entry 14).
-/
namespace Sys2Proof.Machine

/-- One line of a program (30_encoding.md rules R52 and R53). -/
inductive AsmLine where
  /-- a real command with its operand -/
  | command (i : Instr)
  /-- `.word`: a raw pair -/
  | raw (c : Command)
  /-- `UPDB b0, b1, ...` -/
  | updb (bytes : List Byte)
  /-- `UPDS "text"` -/
  | upds (text : List Char)
  /-- `ZERO4` -/
  | zero4
  /-- `SAVE` -/
  | save
  /-- `RESTORE v` -/
  | restore (v : Word)
  /-- `CHECKB b0, b1, b2, b3` -/
  | checkb (b0 b1 b2 b3 : Byte)
  deriving DecidableEq, Repr

/-- The expansion of UPDB: a UPD4 for each full group of four bytes, then one UPDr for the r that remain
(30_encoding.md rule R53). -/
def updb : List Byte → List Instr
  | b0 :: b1 :: b2 :: b3 :: rest => .upd4 (packLanes [b0, b1, b2, b3]) :: updb rest
  | [b0, b1, b2] => [.upd3 (packLanes [b0, b1, b2])]
  | [b0, b1] => [.upd2 (packLanes [b0, b1])]
  | [b0] => [.upd1 (packLanes [b0])]
  | [] => []

/-- The ASCII byte of a character (30_encoding.md rule R53). -/
def asciiByte (ch : Char) : Byte := BitVec.ofNat 8 ch.toNat

/-- The pairs a line assembles to, in order (30_encoding.md rules R52 and R53). -/
def expandLine : AsmLine → List Command
  | .command i => [encode i]
  | .raw c => [c]
  | .updb bytes => (updb bytes).map encode
  | .upds text => (updb (text.map asciiByte)).map encode
  | .zero4 => [encode (.upd4 0x00000000#32)]
  | .save => [encode (.read 0x00000000#32)]
  | .restore v => [encode (.load v)]
  | .checkb b0 b1 b2 b3 => [encode (.check (packLanes [b0, b1, b2, b3]))]

/-- The pairs a program assembles to (30_encoding.md rule R52). -/
def assemble (lines : List AsmLine) : List Command := lines.flatMap expandLine

/-- White space inside a line. DESIGN CHOICE, unsafe: R52 does not say which characters separate (log entry 14). -/
def isBlank (ch : Char) : Bool := ch == ' ' || ch == '\t' || ch == '\r'

/-- The characters without blanks before them. -/
def trimLeft (cs : List Char) : List Char := cs.dropWhile isBlank

/-- The characters without blanks around them. -/
def trim (cs : List Char) : List Char := (trimLeft (trimLeft cs).reverse).reverse

/-- The line without its comment: the text after `;` (30_encoding.md rule R52), but for a `;` inside quotes. DESIGN CHOICE,
unsafe: R52 does not say that a `;` inside quotes is no comment (log entry 14). -/
def dropComment : Bool → List Char → List Char
  | _, [] => []
  | inQuotes, ch :: cs =>
    if ch == '"' then ch :: dropComment (!inQuotes) cs
    else if ch == ';' && !inQuotes then []
    else ch :: dropComment inQuotes cs

/-- The pieces of a text between the characters equal to `sep`. -/
def splitAtChar (sep : Char) : List Char → List (List Char)
  | [] => [[]]
  | ch :: cs =>
    if ch == sep then [] :: splitAtChar sep cs
    else
      match splitAtChar sep cs with
      | [] => [[ch]]
      | p :: ps => (ch :: p) :: ps

/-- The value of a digit below `base`. DESIGN CHOICE, unsafe: R52 does not say in which case hex digits are written, and both are
read (log entry 14). -/
def digitValue (base : Nat) (ch : Char) : Option Nat :=
  let n := ch.toNat
  let v :=
    if 48 ≤ n ∧ n ≤ 57 then some (n - 48)
    else if 65 ≤ n ∧ n ≤ 70 then some (n - 55)
    else if 97 ≤ n ∧ n ≤ 102 then some (n - 87)
    else none
  match v with
  | some d => if d < base then some d else none
  | none => none

/-- The value of digits in a base, continuing from `acc`. -/
def digitsValue (base : Nat) : Nat → List Char → Option Nat
  | acc, [] => some acc
  | acc, ch :: cs =>
    match digitValue base ch with
    | some d => digitsValue base (acc * base + d) cs
    | none => none

/-- A number in hex with the prefix 0x, or in decimal (30_encoding.md rule R52). DESIGN CHOICE, unsafe: R52 says this of the
operand of a command, and the numbers of `.word` and of the pseudo-instructions are read alike (log entry 14). -/
def readNumber (cs : List Char) : Option Nat :=
  match cs with
  | [] => none
  | '0' :: 'x' :: [] => none
  | '0' :: 'x' :: ds => digitsValue 16 0 ds
  | ds => digitsValue 10 0 ds

/-- A number that fits in `w` bits (30_encoding.md rules R52 and R53). DESIGN CHOICE, unsafe: the rules do not say what a number
too wide for its place is, and it is refused (log entry 14). -/
def readBits (w : Nat) (cs : List Char) : Option (BitVec w) :=
  match readNumber (trim cs) with
  | some n => if n < 2 ^ w then some (BitVec.ofNat w n) else none
  | none => none

/-- Numbers of `w` bits separated by commas; no text at all is no number. -/
def readList (w : Nat) (cs : List Char) : Option (List (BitVec w)) :=
  match trim cs with
  | [] => some []
  | ds => (splitAtChar ',' ds).mapM (readBits w)

/-- A text in double quotes, of ASCII characters (30_encoding.md rule R53). DESIGN CHOICE, unsafe: R53 does not speak of escapes,
and there are none (log entry 14). -/
def readQuoted (cs : List Char) : Option (List Char) :=
  match trim cs with
  | '"' :: rest =>
    match rest.reverse with
    | '"' :: body => if body.all (fun ch => ch != '"' && ch.toNat < 128) then some body.reverse else none
    | _ => none
  | _ => none

/-- A name stands for itself in upper or in lower case, as 30_encoding.md rule R52 says of the mnemonics of R48. DESIGN CHOICE,
unsafe: a name of mixed case is refused (log entry 14). -/
def names (word name : List Char) : Bool := word == name || word == name.map Char.toLower

/-- The command a mnemonic of 30_encoding.md rule R48 names. -/
def readMnemonic (word : List Char) (a : Word) : Option Instr :=
  if names word ['N', 'O', 'P'] then some (.nop a)
  else if names word ['I', 'N', 'I', 'T'] then some (.init a)
  else if names word ['L', 'O', 'A', 'D'] then some (.load a)
  else if names word ['R', 'E', 'A', 'D'] then some (.read a)
  else if names word ['U', 'P', 'D', '1'] then some (.upd1 a)
  else if names word ['U', 'P', 'D', '2'] then some (.upd2 a)
  else if names word ['U', 'P', 'D', '3'] then some (.upd3 a)
  else if names word ['U', 'P', 'D', '4'] then some (.upd4 a)
  else if names word ['C', 'H', 'E', 'C', 'K'] then some (.check a)
  else if names word ['L', 'U', 'T', 'R', 'D'] then some (.lutrd a)
  else if names word ['P', 'O', 'L', 'Y'] then some (.poly a)
  else if names word ['S', 'T', 'A', 'T'] then some (.stat a)
  else if names word ['C', 'L', 'R', 'S', 'T'] then some (.clrst a)
  else none

/-- A real command: MNEMONIC [operand], an operand left out being 0 (30_encoding.md rule R52). -/
def readCommand (word rest : List Char) : Option AsmLine :=
  match rest with
  | [] => (readMnemonic word 0x00000000#32).map .command
  | _ => (readBits 32 rest).bind fun a => (readMnemonic word a).map .command

/-- The line whose first word is `word` and whose other text, without blanks around it, is `rest` (30_encoding.md rules R52 and
R53). DESIGN CHOICE, unsafe: R52 gives upper or lower case to the mnemonics of R48 alone, and `.word` and the names of R53 are
read in both cases too; text after ZERO4 or SAVE is refused (log entry 14). -/
def readForm (word rest : List Char) : Option AsmLine :=
  if names word ['.', 'W', 'O', 'R', 'D'] then
    match readList 32 rest with
    | some [w, a] => some (.raw { word := w, arg := a })
    | _ => none
  else if names word ['U', 'P', 'D', 'B'] then (readList 8 rest).map .updb
  else if names word ['U', 'P', 'D', 'S'] then (readQuoted rest).map .upds
  else if names word ['Z', 'E', 'R', 'O', '4'] then if rest = [] then some .zero4 else none
  else if names word ['S', 'A', 'V', 'E'] then if rest = [] then some .save else none
  else if names word ['R', 'E', 'S', 'T', 'O', 'R', 'E'] then (readBits 32 rest).map .restore
  else if names word ['C', 'H', 'E', 'C', 'K', 'B'] then
    match readList 8 rest with
    | some [b0, b1, b2, b3] => some (.checkb b0 b1 b2 b3)
    | _ => none
  else readCommand word rest

/-- The line a text is, none if it is no line of 30_encoding.md rules R52 and R53. DESIGN CHOICE, unsafe: a blank line, of which
R52 does not speak, is no line at all (log entry 14). -/
def readLine (cs : List Char) : Option (List AsmLine) :=
  match trim (dropComment false cs) with
  | [] => some []
  | text =>
    (readForm (text.takeWhile fun ch => !isBlank ch) (trim (text.dropWhile fun ch => !isBlank ch))).map fun l => [l]

/-- The program of a text, one command per line (30_encoding.md rule R52). -/
def readProgram (text : List Char) : Option (List AsmLine) :=
  ((splitAtChar '\n' text).mapM readLine).map List.flatten

end Sys2Proof.Machine
end

