-- ==== Sys2Proof/Machine/Page.lean ====
section
/-!
DEFINITION. The Ogg page the block checksums and the commands a host issues to check one (spec/20_memory.md rules R36 to
R39, 70_reset_and_hazards.md rule R119). Parsing a page is the host's work (00_scope.md rule R3): nothing here is
state of the block.
-/
namespace Sys2Proof.Machine

/-- The n bytes of a value, least significant first: the byte order of the header's fields (20_memory.md rules R36 and
R38). -/
def littleEndian (n : Nat) (v : BitVec (8 * n)) : List Byte := (List.range n).map fun k => v.extractLsb' (8 * k) 8

/-- An Ogg page by its fields (20_memory.md rule R36). -/
structure Page where
  /-- offset 5 -/
  flags : Byte
  /-- offset 6, eight bytes -/
  granule : BitVec 64
  /-- offset 14, four bytes -/
  serial : Word
  /-- offset 18, four bytes -/
  sequenceNumber : Word
  /-- offset 22, four bytes: the stored CRC -/
  storedCrc : Word
  /-- the segment sizes; offset 26 holds their number -/
  segments : List Byte
  /-- the body -/
  body : List Byte
  deriving DecidableEq, Repr

/-- The capture pattern "OggS" (20_memory.md rule R36). -/
def capturePattern : List Byte := [0x4F#8, 0x67#8, 0x67#8, 0x53#8]

/-- The bytes of a page in stream order (20_memory.md rule R36). -/
def pageBytes (p : Page) : List Byte :=
  capturePattern ++ [0x00#8] ++ [p.flags] ++ littleEndian 8 p.granule ++ littleEndian 4 p.serial ++
    littleEndian 4 p.sequenceNumber ++ littleEndian 4 p.storedCrc ++ [BitVec.ofNat 8 p.segments.length] ++ p.segments ++ p.body

/-- A page fits its layout: at most 255 segments, and the body has as many bytes as their sizes say (20_memory.md rule
R36). -/
abbrev PageFits (p : Page) : Prop :=
  p.segments.length ≤ 255 ∧ p.body.length = (p.segments.map BitVec.toNat).sum

/-- The page's bytes with the four bytes of the CRC field, offsets 22 to 25, replaced by zero (20_memory.md rule R37). -/
def zeroCrcField (page : List Byte) : List Byte :=
  page.take 22 ++ [0x00#8, 0x00#8, 0x00#8, 0x00#8] ++ page.drop 26

/-- The checksum of a page (20_memory.md rule R37). -/
def pageChecksum (page : List Byte) : Word := absorbAll Config.initialValue (zeroCrcField page)

/-- The stored CRC of a page, little-endian from offset 22 (20_memory.md rule R38). -/
def storedCrcOf (page : List Byte) : Word := packLanes ((page.drop 22).take 4)

/-- A page is accepted by the CRC test (20_memory.md rule R39). -/
abbrev PageAccepted (page : List Byte) : Prop := pageChecksum page = storedCrcOf page

/-- The lines by which a host computes the checksum of a page (20_memory.md rule R37). -/
def checksumLines (page : List Byte) : List AsmLine :=
  [.command (.init 0x00000000#32), .updb (page.take 22), .zero4, .updb (page.drop 26)]

/-- The commands by which a host checks a page: its checksum, then CHECK with the stored CRC (20_memory.md rule R39). -/
def pageCheck (page : List Byte) : List Command :=
  assemble (checksumLines page ++ [.command (.check (storedCrcOf page))])

end Sys2Proof.Machine
end

