-- ==== Sys2Proof/Machine/Program.lean ====
section
/-!
DEFINITION. Running a finite list of commands and what a run shows (spec/00_scope.md rule R6).
-/
namespace Sys2Proof.Machine

/-- Go on from a next state; a fault or a refusal ends the run. -/
def andThen {σ τ : Type} (o : Host.Outcome σ Fault Refusal) (f : σ → Host.Outcome τ Fault Refusal) :
    Host.Outcome τ Fault Refusal :=
  match o with
  | .next s => f s
  | .fault r => .fault r
  | .refused r => .refused r

/-- The commands of a program performed in issue order (00_scope.md rule R6, 20_memory.md rule R33). -/
def runCommands : List Command → State → Host.Outcome State Fault Refusal
  | [], s => .next s
  | c :: cs, s => andThen (perform c s) (runCommands cs)

/-- What a run shows: the final CRC, the final STATUS and the responses Y in issue order (00_scope.md rule R6). -/
structure Observation where
  /-- the final CRC -/
  crc : Word
  /-- the final STATUS, as STAT would read it -/
  status : Word
  /-- the response of every command, in issue order -/
  responses : List Word
  deriving DecidableEq, Repr

/-- The observation of a program run from a launch state (00_scope.md rule R6). -/
def observe : List Command → State → Host.Outcome Observation Fault Refusal
  | [], s => .next { crc := s.crc, status := readStatus s, responses := [] }
  | c :: cs, s =>
    andThen (perform c s) fun t =>
      andThen (observe cs t) fun o => .next { o with responses := t.rsp :: o.responses }

end Sys2Proof.Machine
end

