-- ==== Sys2Proof/Machine/Port.lean ====
section
/-!
DEFINITION. The block at its pins, one rising clock edge at a time (spec/30_encoding.md rule R44, 10_state.md rules R17
and R19, 70_reset_and_hazards.md rules R115 to R117 and R121). CMD_LATENCY is open (92_eei_decisions.md D21), so each
edge takes as an argument the wait of the command it may accept; no bound on it is assumed (log entry 6).
-/
namespace Sys2Proof.Machine

/-- The input ports sampled at a rising edge of clk (30_encoding.md rule R44). -/
structure PinsIn where
  /-- synchronous reset, active high -/
  rst : Bool
  /-- the host offers a command -/
  cmdValid : Bool
  /-- the command word -/
  cmd : Word
  /-- operand A -/
  arg : Word
  deriving DecidableEq, Repr

/-- The output ports (30_encoding.md rule R44). -/
structure PinsOut where
  /-- the block can accept a command -/
  cmdReady : Bool
  /-- a command completed at the last edge -/
  rspValid : Bool
  /-- the RSP register -/
  rsp : Word
  deriving DecidableEq, Repr

/-- What the block drives: cmd_ready is 1 exactly when rst is 0 and no command is in flight (30_encoding.md rule R44). -/
def outputs (rst : Bool) (s : State) : PinsOut :=
  { cmdReady := !rst && s.inFlight.isNone, rspValid := s.rspValid, rsp := s.rsp }

/-- A command is accepted at an edge with rst = 0, cmd_valid = 1 and cmd_ready = 1 (30_encoding.md rule R44). -/
def accepts (i : PinsIn) (s : State) : Bool := i.cmdValid && (outputs i.rst s).cmdReady

/-- The block is reset (70_reset_and_hazards.md rule R115); what the host has yet to issue is the host's and stays
(log entry 7). -/
def resetBlock (s : State) : State := { State.reset with program := s.program }

/-- The block holds a command that completes at the edge after `wait` further ones; no response is offered meanwhile
(30_encoding.md rule R44). -/
def holdCommand (wait : Nat) (c : Command) (s : State) : State :=
  { s with inFlight := some { command := c, wait := wait }, rspValid := false }

/-- One rising edge of clk (30_encoding.md rule R44, 70_reset_and_hazards.md rules R115 and R116). Reset overrides
everything; else the command in flight waits or completes; else a command may be accepted, whose CMD_LATENCY is
`wait + 1`. -/
def edge (wait : Nat) (i : PinsIn) (s : State) : Host.Outcome State Fault Refusal :=
  if i.rst then .next (resetBlock s)
  else
    match s.inFlight with
    | some { command := c, wait := 0 } => perform c { s with inFlight := none }
    | some { command := c, wait := n + 1 } => .next (holdCommand n c s)
    | none =>
      if i.cmdValid then .next (holdCommand wait { word := i.cmd, arg := i.arg } s)
      else .next (idle s)

/-- A sequence of rising edges, each with the wait it would give a command it accepts. -/
def runEdges : List (Nat × PinsIn) → State → Host.Outcome State Fault Refusal
  | [], s => .next s
  | (wait, i) :: es, s => andThen (edge wait i s) (runEdges es)

/-- The command that completes at an edge, if any (30_encoding.md rule R44). -/
def completesAt (i : PinsIn) (s : State) : List Command :=
  if i.rst then []
  else
    match s.inFlight with
    | some { command := c, wait := 0 } => [c]
    | some { command := _, wait := _ + 1 } => []
    | none => []

/-- The commands that complete during a sequence of edges, in their order. -/
def completed : List (Nat × PinsIn) → State → List Command
  | [], _ => []
  | (wait, i) :: es, s =>
    match edge wait i s with
    | .next t => completesAt i s ++ completed es t
    | .fault _ => completesAt i s
    | .refused _ => completesAt i s

/-- What a host that issues the pairs of `program` drives: it holds the next pair until it is accepted
(70_reset_and_hazards.md rule R121). -/
def hostDrives (s : State) : PinsIn :=
  match s.program with
  | [] => { rst := false, cmdValid := false, cmd := 0#32, arg := 0#32 }
  | c :: _ => { rst := false, cmdValid := true, cmd := c.word, arg := c.arg }

/-- One edge with that host; an accepted pair is no longer to be issued. -/
def tick (wait : Nat) (s : State) : Host.Outcome State Fault Refusal :=
  if accepts (hostDrives s) s then edge wait (hostDrives s) { s with program := s.program.tail }
  else edge wait (hostDrives s) s

/-- A sequence of edges with that host. -/
def ticks : List Nat → State → Host.Outcome State Fault Refusal
  | [], s => .next s
  | wait :: ws, s => andThen (tick wait s) (ticks ws)

end Sys2Proof.Machine
end

