-- ==== Sys2Proof/Safety.lean ====
section
/-!
DEFINITION. The terms in which claims are made: what holds in every state a run reaches (spec/10_state.md rules R12 and
R13, 30_encoding.md rule R44), a step's outcome read as a state, and the polynomials over GF(2) that words and
messages stand for (41_update.md rule R72, 20_memory.md rule R28). A safe run is one that goes on: it never ends in a
fault or a refusal (00_scope.md rule R5).
-/
namespace Sys2Proof.Safety

open Sys2Proof.Machine

/-- Bits 31:4 of STATUS are zero (10_state.md rule R13). -/
abbrev ReservedClear (s : State) : Prop := s.status &&& 0xFFFFFFF0#32 = 0x00000000#32

/-- MATCH = 1 implies CHK = 1 (10_state.md rule R12). -/
abbrev MatchImpliesChk (s : State) : Prop := matched s.status = true → chk s.status = true

/-- CHK = 1 and MATCH = 0 implies MISM = 1 (10_state.md rule R12). -/
abbrev MismatchRecorded (s : State) : Prop := chk s.status = true → matched s.status = false → mism s.status = true

/-- While rsp_valid is 1 no command is in flight (30_encoding.md rule R44). -/
abbrev ResponseAlone (s : State) : Prop := s.rspValid = true → s.inFlight = none

/-- What holds in every state after reset. -/
abbrev Inv (s : State) : Prop := ReservedClear s ∧ MatchImpliesChk s ∧ MismatchRecorded s ∧ ResponseAlone s

/-- The step goes on: neither a fault nor a refusal (00_scope.md rule R5). -/
abbrev GoesOn (o : Host.Outcome State Fault Refusal) : Prop := ∃ t, o = .next t

/-- The thirteen legal command words (30_encoding.md rule R48). -/
def legalWords : List Word :=
  [0x00000000#32, 0x00000001#32, 0x00000002#32, 0x00000003#32, 0x00000008#32, 0x00000009#32, 0x0000000A#32,
   0x0000000B#32, 0x00000010#32, 0x00000018#32, 0x00000019#32, 0x00000020#32, 0x00000021#32]

/-- The words of the commands that write CRC: INIT, LOAD, UPD1 to UPD4 (10_state.md rule R10). -/
def crcWriterWords : List Word :=
  [0x00000001#32, 0x00000002#32, 0x00000008#32, 0x00000009#32, 0x0000000A#32, 0x0000000B#32]

/-- The word of CHECK (30_encoding.md rule R48). -/
def checkWord : Word := 0x00000010#32

/-- The word of CLRST (30_encoding.md rule R48). -/
def clrstWord : Word := 0x00000021#32

/-- The polynomial over GF(2) of a bit vector: bit k is the coefficient of x^k (41_update.md rule R72). -/
noncomputable def bitPoly {w : Nat} (v : BitVec w) : Polynomial (ZMod 2) :=
  ∑ k ∈ Finset.range w, if v.getLsbD k then Polynomial.X ^ k else 0

/-- The polynomial of a message: each byte, most significant bit first, below the bytes before it (20_memory.md rule
R28). -/
noncomputable def messagePoly (message : List Byte) : Polynomial (ZMod 2) :=
  message.foldl (fun p b => p * Polynomial.X ^ 8 + bitPoly b) 0

/-- P(x) = x^32 + the polynomial of 0x04C11DB7 (41_update.md rule R72). -/
noncomputable def generator : Polynomial (ZMod 2) := Polynomial.X ^ 32 + bitPoly Config.poly

/-- The bits of a message in the order they enter the CRC, most significant bit of each byte first (20_memory.md rule
R28). -/
def messageBits (message : List Byte) : List Bool :=
  message.flatMap fun b =>
    [b.getLsbD 7, b.getLsbD 6, b.getLsbD 5, b.getLsbD 4, b.getLsbD 3, b.getLsbD 2, b.getLsbD 1, b.getLsbD 0]

end Sys2Proof.Safety
end

