-- ==== Sys2Proof/Certificates/Slice0/Obligations.lean ====
section
/-!
DEFINITION. The statements about the block. Rule numbers are those of spec/. exec gives the state in the cycle after the
command's completion edge, at which R44 sets RSP to the response Y and drives rsp_valid = 1; so in every statement about a
command Y stands in `rsp` and `rspValid` is true (log entry 4).
-/

open Sys2Proof Sys2Proof.Machine Sys2Proof.Safety

/-! ## Encoding -/

/-- R48: each of the thirteen commands has the command word and uses the bits of A that its row of the table gives, and a
command decodes to a legal command exactly when it is that command's encoding. -/
def Obligations.EncodingTable : Prop :=
  (∀ a : Word,
    (encode (.nop a) = { word := 0x00000000#32, arg := a } ∧ operandMask (.nop a) = 0x00000000#32) ∧
    (encode (.init a) = { word := 0x00000001#32, arg := a } ∧ operandMask (.init a) = 0x00000000#32) ∧
    (encode (.load a) = { word := 0x00000002#32, arg := a } ∧ operandMask (.load a) = 0xFFFFFFFF#32) ∧
    (encode (.read a) = { word := 0x00000003#32, arg := a } ∧ operandMask (.read a) = 0x00000000#32) ∧
    (encode (.upd1 a) = { word := 0x00000008#32, arg := a } ∧ operandMask (.upd1 a) = 0x000000FF#32) ∧
    (encode (.upd2 a) = { word := 0x00000009#32, arg := a } ∧ operandMask (.upd2 a) = 0x0000FFFF#32) ∧
    (encode (.upd3 a) = { word := 0x0000000A#32, arg := a } ∧ operandMask (.upd3 a) = 0x00FFFFFF#32) ∧
    (encode (.upd4 a) = { word := 0x0000000B#32, arg := a } ∧ operandMask (.upd4 a) = 0xFFFFFFFF#32) ∧
    (encode (.check a) = { word := 0x00000010#32, arg := a } ∧ operandMask (.check a) = 0xFFFFFFFF#32) ∧
    (encode (.lutrd a) = { word := 0x00000018#32, arg := a } ∧ operandMask (.lutrd a) = 0x000000FF#32) ∧
    (encode (.poly a) = { word := 0x00000019#32, arg := a } ∧ operandMask (.poly a) = 0x00000000#32) ∧
    (encode (.stat a) = { word := 0x00000020#32, arg := a } ∧ operandMask (.stat a) = 0x00000000#32) ∧
    (encode (.clrst a) = { word := 0x00000021#32, arg := a } ∧ operandMask (.clrst a) = 0x00000000#32)) ∧
  ∀ (c : Command) (i : Instr), decode c = .ok i ↔ c = encode i

/-- Some words written out bit by bit from 30_encoding.md: one command of each family. A sanity statement. -/
def Obligations.SomeWordsDecode : Prop :=
  decode { word := 0b00000000000000000000000000000010#32, arg := 0x619119D1#32 } = .ok (.load 0x619119D1#32) ∧
  decode { word := 0b00000000000000000000000000001011#32, arg := 0x5367674F#32 } = .ok (.upd4 0x5367674F#32) ∧
  decode { word := 0b00000000000000000000000000010000#32, arg := 0x96BB864E#32 } = .ok (.check 0x96BB864E#32) ∧
  decode { word := 0b00000000000000000000000000011000#32, arg := 0xFFFFFF80#32 } = .ok (.lutrd 0xFFFFFF80#32) ∧
  decode { word := 0b00000000000000000000000000100001#32, arg := 0x00000000#32 } = .ok (.clrst 0x00000000#32) ∧
  decode { word := 0b00000000000000000000000100001000#32, arg := 0x00000031#32 } = .error .reservedBitsSet ∧
  decode { word := 0b00000000000000000000000000000100#32, arg := 0x00000000#32 } = .error .unassignedOpcode

/-- The decoder rejects exactly the commands that are not well formed, a set reserved bit before an unassigned opcode
(the two reasons are the model's names for the cases of R47 and R49). -/
def Obligations.DecodeRejectsByName : Prop :=
  ∀ c : Command,
    ((∃ i, decode c = .ok i) ↔ c.WellFormed) ∧
    (decode c = .error .reservedBitsSet ↔ c.word.extractLsb' 8 24 ≠ 0#24) ∧
    (decode c = .error .unassignedOpcode ↔ c.word.extractLsb' 8 24 = 0#24 ∧ c.word ∉ legalWords)

/-- R45: in every legal command RSV is zero and OP is the command's opcode; OP[7:2] = 0b000010 selects UPD, and then
OP[1:0] = n - 1 gives the number of bytes; each of the four values of OP[1:0] is a command. -/
def Obligations.UpdateOpcodeSubfield : Prop :=
  (∀ (c : Command) (i : Instr), decode c = .ok i →
    c.word.extractLsb' 8 24 = 0#24 ∧ c.word.extractLsb' 0 8 = i.opcode ∧
    (messageBytes i ≠ [] ↔ c.word.extractLsb' 2 6 = 0b000010#6) ∧
    (c.word.extractLsb' 2 6 = 0b000010#6 → messageBytes i = lanes ((c.word.extractLsb' 0 2).toNat + 1) c.arg)) ∧
  ∀ (n : BitVec 2) (a : Word), ∃ i, decode { word := (0x000000#24 ++ 0b000010#6 ++ n), arg := a } = .ok i

/-- R47, R49 and R102: a command whose word is not one of the thirteen, in particular one with a bit of RSV set, sets
STATUS.ILL, responds 0 and changes nothing else, whatever A is. -/
def Obligations.IllegalCommandOnlySetsIll : Prop :=
  (∀ (c : Command) (s : State), c.word ∉ legalWords →
    perform c s = .next { s with status := s.status ||| 0x00000008#32, rsp := 0x00000000#32, rspValid := true }) ∧
  ∀ c : Command, c.word.extractLsb' 8 24 ≠ 0#24 → c.word ∉ legalWords

/-! ## The step -/

/-- A step performs the next command: the one in flight, whatever wait it still has, else the next pair the host issues; a
legal one by exec of what it decodes to, any other as the illegal command. Around that the step only takes the command from
where it was. That the host's pairs stand in the state is the model's choice (log entry 1); that a step completes a command
in flight is deduced from R5 and R44 (log entry 4). -/
def Obligations.StepRunsDecodedCommand : Prop :=
  (∀ (s : State) (c : Command) (cs : List Command) (i : Instr),
    s.inFlight = none → s.program = c :: cs → decode c = .ok i → step s = exec i { s with program := cs }) ∧
  (∀ (s : State) (f : InFlight) (i : Instr),
    s.inFlight = some f → decode f.command = .ok i → step s = exec i { s with inFlight := none }) ∧
  (∀ (s : State) (c : Command) (cs : List Command) (e : DecodeError),
    s.inFlight = none → s.program = c :: cs → decode c = .error e →
    step s = .next { s with
      status := s.status ||| 0x00000008#32, rsp := 0x00000000#32, rspValid := true, program := cs }) ∧
  ∀ (s : State) (f : InFlight) (e : DecodeError),
    s.inFlight = some f → decode f.command = .error e →
    step s = .next { s with
      status := s.status ||| 0x00000008#32, rsp := 0x00000000#32, rspValid := true, inFlight := none }

/-- With no command to perform, a step lowers rsp_valid and changes nothing else (the model's choice, log entry 2). -/
def Obligations.StepWithoutCommandIsIdle : Prop :=
  ∀ s : State, s.inFlight = none → s.program = [] → step s = .next { s with rspValid := false }

/-- withFetchWord places the command of a table word so that the next step performs it: the command word in bits 31:0 and
operand A in bits 63:32, A being 0 in a word of 32 bits (the model's choice, log entries 3 and 13). -/
def Obligations.FetchWordRunsNext : Prop :=
  (∀ (s : State) (w : BitVec 32),
    step (s.withFetchWord 32 w.toNat) = perform { word := w, arg := 0x00000000#32 } { s with inFlight := none }) ∧
  ∀ (s : State) (w : BitVec 64),
    step (s.withFetchWord 64 w.toNat) =
      perform { word := w.extractLsb' 0 32, arg := w.extractLsb' 32 32 } { s with inFlight := none }

/-- Every command, every step and every clock edge goes on: none faults, none refuses (R5). -/
def Obligations.EveryStepGoesOn : Prop :=
  (∀ (c : Command) (s : State), GoesOn (perform c s)) ∧ (∀ s : State, GoesOn (step s)) ∧
  (∀ (w : Nat) (i : PinsIn) (s : State), GoesOn (edge w i s)) ∧ ∀ (w : Nat) (s : State), GoesOn (tick w s)

/-- As many steps as the host has pairs to issue perform those pairs in order (the program of R6 standing in the state is
the model's choice, log entry 1). -/
def Obligations.StepsRunIssuedProgram : Prop :=
  ∀ (s : State), s.inFlight = none →
    Host.Core.run Sys2Proof.core s.program.length s = runCommands s.program { s with program := [] }

/-! ## The commands: what each answers, for every operand and every state -/

/-- R60: NOP responds with CRC; nothing else changes, whatever A is. -/
def Obligations.NopRespondsCrc : Prop :=
  ∀ (a : Word) (s : State),
    decode { word := 0x00000000#32, arg := a } = .ok (.nop a) ∧
    exec (.nop a) s = .next { s with rsp := s.crc, rspValid := true }

/-- R61: INIT sets CRC to 0, clears CHK and MATCH, responds 0; INIT twice is the same as INIT once; zero bytes absorbed
straight after it leave CRC at 0, so leading zero bytes of a message do not change its CRC. -/
def Obligations.InitStartsFromZero : Prop :=
  (∀ (a : Word) (s : State),
    decode { word := 0x00000001#32, arg := a } = .ok (.init a) ∧
    exec (.init a) s = .next { s with
      crc := 0x00000000#32, status := s.status &&& 0xFFFFFFFC#32, rsp := 0x00000000#32, rspValid := true }) ∧
  (∀ (a b : Word) (s t u : State), exec (.init a) s = .next t → exec (.init b) t = .next u → u = t) ∧
  (∀ k : Nat, absorbAll 0x00000000#32 (List.replicate k 0x00#8) = 0x00000000#32) ∧
  ∀ (k : Nat) (s : List Byte),
    absorbAll 0x00000000#32 (List.replicate k 0x00#8 ++ s) = absorbAll 0x00000000#32 s

/-- R62: LOAD sets CRC to A, clears CHK and MATCH, responds A; LOAD 0 has the effect of INIT. -/
def Obligations.LoadSetsCrc : Prop :=
  (∀ (a : Word) (s : State),
    decode { word := 0x00000002#32, arg := a } = .ok (.load a) ∧
    exec (.load a) s = .next { s with
      crc := a, status := s.status &&& 0xFFFFFFFC#32, rsp := a, rspValid := true }) ∧
  ∀ (a : Word) (s : State), exec (.load 0x00000000#32) s = exec (.init a) s

/-- R63: READ responds with CRC; nothing else changes, and reading again answers the same. -/
def Obligations.ReadRespondsCrc : Prop :=
  (∀ (a : Word) (s : State),
    decode { word := 0x00000003#32, arg := a } = .ok (.read a) ∧
    exec (.read a) s = .next { s with rsp := s.crc, rspValid := true }) ∧
  ∀ (a b : Word) (s t u : State), exec (.read a) s = .next t → exec (.read b) t = .next u → u = t

/-- R73: UPD1 absorbs A[7:0]. -/
def Obligations.Upd1AbsorbsOneByte : Prop :=
  (∀ (a : Word) (s : State),
    decode { word := 0x00000008#32, arg := a } = .ok (.upd1 a) ∧
    exec (.upd1 a) s = .next { s with
      crc := absorb s.crc (a.extractLsb' 0 8), status := s.status &&& 0xFFFFFFFC#32,
      rsp := absorb s.crc (a.extractLsb' 0 8), rspValid := true }) ∧
  absorb 0x00000000#32 0x00#8 = 0x00000000#32

/-- R74: UPD2 absorbs A[7:0], then A[15:8], as two UPD1 would. -/
def Obligations.Upd2AbsorbsTwoBytes : Prop :=
  ∀ (a : Word) (s : State),
    decode { word := 0x00000009#32, arg := a } = .ok (.upd2 a) ∧
    exec (.upd2 a) s = .next { s with
      crc := absorb (absorb s.crc (a.extractLsb' 0 8)) (a.extractLsb' 8 8), status := s.status &&& 0xFFFFFFFC#32,
      rsp := absorb (absorb s.crc (a.extractLsb' 0 8)) (a.extractLsb' 8 8), rspValid := true } ∧
    exec (.upd2 a) s = andThen (exec (.upd1 a) s) (exec (.upd1 (a >>> 8)))

/-- R75: UPD3 absorbs A[7:0], A[15:8], then A[23:16], as three UPD1 would. -/
def Obligations.Upd3AbsorbsThreeBytes : Prop :=
  ∀ (a : Word) (s : State),
    decode { word := 0x0000000A#32, arg := a } = .ok (.upd3 a) ∧
    exec (.upd3 a) s = .next { s with
      crc := absorb (absorb (absorb s.crc (a.extractLsb' 0 8)) (a.extractLsb' 8 8)) (a.extractLsb' 16 8),
      status := s.status &&& 0xFFFFFFFC#32,
      rsp := absorb (absorb (absorb s.crc (a.extractLsb' 0 8)) (a.extractLsb' 8 8)) (a.extractLsb' 16 8),
      rspValid := true } ∧
    exec (.upd3 a) s =
      andThen (andThen (exec (.upd1 a) s) (exec (.upd1 (a >>> 8)))) (exec (.upd1 (a >>> 16)))

/-- R76: UPD4 absorbs the four bytes of A, A[7:0] first; four zero bytes multiply the remainder by x^32 mod P, leave a CRC
of 0 at 0 and change any other CRC; the word "OggS" is A = 0x5367674F. -/
def Obligations.Upd4AbsorbsFourBytes : Prop :=
  (∀ (a : Word) (s : State),
    decode { word := 0x0000000B#32, arg := a } = .ok (.upd4 a) ∧
    exec (.upd4 a) s = .next { s with
      crc := absorb (absorb (absorb (absorb s.crc (a.extractLsb' 0 8)) (a.extractLsb' 8 8)) (a.extractLsb' 16 8))
        (a.extractLsb' 24 8),
      status := s.status &&& 0xFFFFFFFC#32,
      rsp := absorb (absorb (absorb (absorb s.crc (a.extractLsb' 0 8)) (a.extractLsb' 8 8)) (a.extractLsb' 16 8))
        (a.extractLsb' 24 8),
      rspValid := true }) ∧
  (∀ c : Word, absorbAll c [0x00#8, 0x00#8, 0x00#8, 0x00#8] = c ↔ c = 0x00000000#32) ∧
  (∀ c : Word, bitPoly (absorbAll c [0x00#8, 0x00#8, 0x00#8, 0x00#8]) = (bitPoly c * Polynomial.X ^ 32) %ₘ generator) ∧
  packLanes (['O', 'g', 'g', 'S'].map asciiByte) = 0x5367674F#32

/-- R85: CHECK sets CHK, and MATCH if CRC = A, else clears MATCH and sets MISM; responds with the syndrome CRC ^ A, which
is 0 exactly when they match; CRC is not changed, so a second CHECK against the same A responds the same. -/
def Obligations.CheckComparesCrc : Prop :=
  (∀ (a : Word) (s : State),
    decode { word := 0x00000010#32, arg := a } = .ok (.check a) ∧
    exec (.check a) s = .next { s with
      status := if s.crc = a then s.status ||| 0x00000003#32 else (s.status ||| 0x00000005#32) &&& 0xFFFFFFFD#32,
      rsp := s.crc ^^^ a, rspValid := true } ∧
    (s.crc ^^^ a = 0x00000000#32 ↔ s.crc = a)) ∧
  ∀ (a : Word) (s t u : State), exec (.check a) s = .next t → exec (.check a) t = .next u → u = t

/-- R90: LUTRD responds with entry A[7:0] of the table; nothing else changes. -/
def Obligations.LutrdReadsTable : Prop :=
  (∀ (a : Word) (s : State),
    decode { word := 0x00000018#32, arg := a } = .ok (.lutrd a) ∧
    exec (.lutrd a) s = .next { s with rsp := lut (a.extractLsb' 0 8), rspValid := true }) ∧
  lut 0x00#8 = 0x00000000#32

/-- R91: POLY responds with 0x04C11DB7, which is LUT[1], in every state; nothing else changes. -/
def Obligations.PolyRespondsPolynomial : Prop :=
  (∀ (a : Word) (s : State),
    decode { word := 0x00000019#32, arg := a } = .ok (.poly a) ∧
    exec (.poly a) s = .next { s with rsp := 0x04C11DB7#32, rspValid := true }) ∧
  lut 0x01#8 = 0x04C11DB7#32

/-- R92: STAT responds with STATUS, bits 31:4 reading 0; nothing else changes, and reading again answers the same. -/
def Obligations.StatRespondsStatus : Prop :=
  (∀ (a : Word) (s : State),
    decode { word := 0x00000020#32, arg := a } = .ok (.stat a) ∧
    exec (.stat a) s = .next { s with rsp := s.status &&& 0x0000000F#32, rspValid := true }) ∧
  ∀ (a b : Word) (s t u : State), exec (.stat a) s = .next t → exec (.stat b) t = .next u → u = t

/-- R93: CLRST responds with STATUS as it was and clears it; CRC is not changed; a second CLRST responds 0; no other
command clears MISM or ILL. -/
def Obligations.ClrstReadsAndClears : Prop :=
  (∀ (a : Word) (s : State),
    decode { word := 0x00000021#32, arg := a } = .ok (.clrst a) ∧
    exec (.clrst a) s = .next { s with
      status := 0x00000000#32, rsp := s.status &&& 0x0000000F#32, rspValid := true }) ∧
  (∀ (a b : Word) (s t u : State),
    exec (.clrst a) s = .next t → exec (.clrst b) t = .next u → u.rsp = 0x00000000#32) ∧
  ∀ (c : Command) (s t : State), perform c s = .next t → c.word ≠ clrstWord →
    (mism s.status = true → mism t.status = true) ∧ (ill s.status = true → ill t.status = true)

/-! ## What commands have in common -/

/-- R12 and R13: for each field of STATUS exactly the commands the table names set and clear it, every other command keeps
it, and reset clears all; bits 31:4 read as zero in every state, no command sets them and CLRST writes them with zero. -/
def Obligations.StatusFieldsSetAndCleared : Prop :=
  (∀ (c : Command) (s t : State), perform c s = .next t →
    chk t.status = (if c.word = checkWord then true
      else if c.word ∈ crcWriterWords ∨ c.word = clrstWord then false else chk s.status) ∧
    matched t.status = (if c.word = checkWord then decide (s.crc = c.arg)
      else if c.word ∈ crcWriterWords ∨ c.word = clrstWord then false else matched s.status) ∧
    mism t.status = (if c.word = checkWord then (mism s.status || decide (s.crc ≠ c.arg))
      else if c.word = clrstWord then false else mism s.status) ∧
    ill t.status = (if c.word = clrstWord then false
      else if c.word ∈ legalWords then ill s.status else true) ∧
    (∀ k : Nat, 4 ≤ k → s.status.getLsbD k = false → t.status.getLsbD k = false) ∧
    (c.word = clrstWord → t.status = 0x00000000#32)) ∧
  (∀ (w : Nat) (i : PinsIn) (s : State), i.rst = true →
    ∃ t, edge w i s = .next t ∧ t.status = 0x00000000#32) ∧
  ∀ s : State, readStatus s &&& 0xFFFFFFF0#32 = 0x00000000#32

/-- CRC is written only by INIT, LOAD and UPD1 to UPD4, each of which responds with the new CRC (R10). -/
def Obligations.OnlyWritersChangeCrc : Prop :=
  ∀ (c : Command) (s t : State), perform c s = .next t →
    (c.word ∉ crcWriterWords → t.crc = s.crc) ∧ (c.word ∈ crcWriterWords → t.rsp = t.crc)

/-- R100: ILLEGAL is raised exactly by a word that is not in R48, MISMATCH exactly by a CHECK with CRC != A, whose syndrome
is its response; every command with every operand completes. -/
def Obligations.TwoEventsAndTheirCauses : Prop :=
  (∀ (c : Command) (s : State), GoesOn (perform c s)) ∧
  ∀ (c : Command) (s t : State), perform c s = .next t →
    (ill s.status = false → (ill t.status = true ↔ c.word ∉ legalWords)) ∧
    (mism s.status = false → (mism t.status = true ↔ c.word = checkWord ∧ s.crc ≠ c.arg)) ∧
    (c.word = checkWord → t.rsp = s.crc ^^^ c.arg)

/-- R103: a mismatch sets MISM, and at the pins nothing but a completing CLRST or reset clears it. -/
def Obligations.MismatchIsSticky : Prop :=
  (∀ (a : Word) (s : State), s.crc ≠ a →
    ∃ t, exec (.check a) s = .next t ∧ mism t.status = true ∧ t.crc = s.crc) ∧
  (∀ (w : Nat) (i : PinsIn) (s t : State), edge w i s = .next t → mism s.status = true → mism t.status = false →
    i.rst = true ∨ ∃ c ∈ completesAt i s, c.word = clrstWord) ∧
  (∀ (a : Word) (s : State), ∃ t, exec (.clrst a) s = .next t ∧ mism t.status = false) ∧
  ∀ (w : Nat) (i : PinsIn) (s : State), i.rst = true → ∃ t, edge w i s = .next t ∧ mism t.status = false

/-- NOP, READ, STAT, LUTRD and POLY change no state and are idempotent, INIT and LOAD are idempotent, UPD is not (R32, R50). -/
def Obligations.IdempotentCommands : Prop :=
  (∀ (a : Word) (i : Instr), i ∈ [.nop a, .read a, .stat a, .lutrd a, .poly a] →
    ∀ s : State, ∃ t, exec i s = .next t ∧ t.crc = s.crc ∧ t.status = s.status ∧ exec i t = .next t) ∧
  (∀ (a : Word) (i : Instr), i ∈ [.init a, .load a] → ∀ s : State, ∃ t, exec i s = .next t ∧ exec i t = .next t) ∧
  ∀ (a : Word) (i : Instr), i ∈ [.upd1 a, .upd2 a, .upd3 a, .upd4 a] →
    ∃ s t u : State, exec i s = .next t ∧ exec i t = .next u ∧ u.crc ≠ t.crc

/-- R33: what a command does to CRC and STATUS and what it responds depends only on CRC, STATUS and the command, and a
run of more commands shows the responses of the earlier ones first, unchanged by the later ones. -/
def Obligations.ResponsesInIssueOrder : Prop :=
  (∀ (c : Command) (s t s' t' : State), s.crc = t.crc → s.status = t.status →
    perform c s = .next s' → perform c t = .next t' →
    s'.crc = t'.crc ∧ s'.status = t'.status ∧ s'.rsp = t'.rsp) ∧
  ∀ (cs ds : List Command) (s : State), ∃ (t : State) (o q : Observation),
    runCommands cs s = .next t ∧ observe cs s = .next o ∧ observe ds t = .next q ∧
    o.responses.length = cs.length ∧
    observe (cs ++ ds) s = .next { q with responses := o.responses ++ q.responses }

/-- R46: a command uses all of A, n byte lanes, an 8-bit index, or nothing; the bits of A it does not use never make it
illegal and never affect what it does; an illegal command ignores A. -/
def Obligations.UnusedOperandBitsIgnored : Prop :=
  (∀ a : Word,
    (∀ i ∈ [Instr.load a, .check a], operandMask i = 0xFFFFFFFF#32) ∧
    messageBytes (.upd1 a) = lanes 1 a ∧ operandMask (.upd1 a) = 0x000000FF#32 ∧
    messageBytes (.upd2 a) = lanes 2 a ∧ operandMask (.upd2 a) = 0x0000FFFF#32 ∧
    messageBytes (.upd3 a) = lanes 3 a ∧ operandMask (.upd3 a) = 0x00FFFFFF#32 ∧
    messageBytes (.upd4 a) = lanes 4 a ∧ operandMask (.upd4 a) = 0xFFFFFFFF#32 ∧
    operandMask (.lutrd a) = 0x000000FF#32 ∧
    ∀ i ∈ [Instr.nop a, .init a, .read a, .poly a, .stat a, .clrst a], operandMask i = 0x00000000#32) ∧
  (∀ (c d : Command) (i : Instr) (s : State), decode c = .ok i → d.word = c.word →
    d.arg &&& operandMask i = c.arg &&& operandMask i → (∃ j, decode d = .ok j) ∧ perform d s = perform c s) ∧
  ∀ (c d : Command) (e : DecodeError) (s : State), decode c = .error e → d.word = c.word → perform d s = perform c s

/-- R29: lane k of A is A[8k+7:8k]; UPDn absorbs lanes 0 to n-1, lane 0 first, and ignores the others, so that bytes
loaded little-endian are absorbed in stream order; the bytes "1234" in order and reversed give the two CRCs named. -/
def Obligations.LanesInStreamOrder : Prop :=
  (∀ (a : Word) (b0 b1 b2 b3 : Byte) (s : State),
    a = b0.setWidth 32 ||| (b1.setWidth 32 <<< 8) ||| (b2.setWidth 32 <<< 16) ||| (b3.setWidth 32 <<< 24) →
    ∃ t1 t2 t3 t4 : State,
      exec (.upd1 a) s = .next t1 ∧ t1.crc = absorbAll s.crc [b0] ∧
      exec (.upd2 a) s = .next t2 ∧ t2.crc = absorbAll s.crc [b0, b1] ∧
      exec (.upd3 a) s = .next t3 ∧ t3.crc = absorbAll s.crc [b0, b1, b2] ∧
      exec (.upd4 a) s = .next t4 ∧ t4.crc = absorbAll s.crc [b0, b1, b2, b3]) ∧
  (∀ (a : Word) (k : Nat), lane a k = a.extractLsb' (8 * k) 8) ∧
  absorbAll 0x00000000#32 (['1', '2', '3', '4'].map asciiByte) = 0x619119D1#32 ∧
  absorbAll 0x00000000#32 (['4', '3', '2', '1'].map asciiByte) = 0x050DC953#32

/-! ## The CRC -/

/-- The table is the one the spec prints; it follows from Step, it is linear, and its corner values are those named (the
sentences of 10_state.md section 4; the construction is marked there as general knowledge, the rest as derived). -/
def Obligations.LookupTableContents : Prop :=
  (∀ r : Word, crcStep r = if r.getLsbD 31 then (r <<< 1) ^^^ 0x04C11DB7#32 else r <<< 1) ∧
  (∀ i : Byte, lut i = crcStep (crcStep (crcStep (crcStep (crcStep (crcStep (crcStep (crcStep
    (i.setWidth 32 <<< 24))))))))) ∧
  (∀ i : Byte, printedLut[i.toNat]? = some (lut i)) ∧ printedLut.length = 256 ∧
  (∀ i j : Byte, lut (i ^^^ j) = lut i ^^^ lut j) ∧
  lut 0x00#8 = 0x00000000#32 ∧ lut 0x01#8 = 0x04C11DB7#32 ∧ lut 0x80#8 = 0x690CE0EE#32 ∧ lut 0xFF#8 = 0xB1F740B4#32

/-- Absorb by the table: the index is c[31:24] ^ b, and the worked values are those named (the formula of 41_update.md
section 1, marked there as general knowledge). -/
def Obligations.AbsorbByTable : Prop :=
  (∀ (c : Word) (b : Byte), absorb c b = (c <<< 8) ^^^ lut (c.extractLsb' 24 8 ^^^ b)) ∧
  absorb 0x00000000#32 0x01#8 = 0x04C11DB7#32 ∧ absorb 0xFFFFFFFF#32 0x00#8 = 0x4E08BFB4#32 ∧
  absorb 0xFFFFFFFF#32 0xFF#8 = 0xFFFFFF00#32 ∧ absorb 0x00000001#32 0x00#8 = 0x00000100#32 ∧
  absorb 0x12345678#32 0x9A#8 = 0x7B527556#32

/-- Absorb by the table equals eight bit steps (the sentence of R71, which the spec marks as derived). -/
def Obligations.AbsorbBitByBit : Prop :=
  ∀ (c : Word) (b : Byte), absorb c b = crcSteps 8 (c ^^^ (b.setWidth 32 <<< 24))

/-- The accumulator c after the bytes of a message is (c(x) x^(8n) + M(x) x^32) mod P(x) over GF(2), bit k being the
coefficient of x^k (the sentence of R72, which the spec marks as general knowledge and derived). -/
def Obligations.CrcIsPolynomialRemainder : Prop :=
  ∀ (c : Word) (message : List Byte),
    bitPoly (absorbAll c message) =
      (bitPoly c * Polynomial.X ^ (8 * message.length) + messagePoly message * Polynomial.X ^ 32) %ₘ generator

/-- P(x) written out term by term (the parameter table of 00_scope.md section 4, which marks the expansion as derived). -/
def Obligations.GeneratorTerms : Prop :=
  generator = Polynomial.X ^ 32 + Polynomial.X ^ 26 + Polynomial.X ^ 23 + Polynomial.X ^ 22 + Polynomial.X ^ 16 +
    Polynomial.X ^ 12 + Polynomial.X ^ 11 + Polynomial.X ^ 10 + Polynomial.X ^ 8 + Polynomial.X ^ 7 + Polynomial.X ^ 5 +
    Polynomial.X ^ 4 + Polynomial.X ^ 2 + Polynomial.X + 1

/-- Composition and zero prefix (laws of R78, which the spec marks as derived). -/
def Obligations.CrcComposesAndSkipsLeadingZeros : Prop :=
  (∀ (c : Word) (s t : List Byte), absorbAll c (s ++ t) = absorbAll (absorbAll c s) t) ∧
  ∀ (k : Nat) (s : List Byte),
    absorbAll 0x00000000#32 (List.replicate k 0x00#8 ++ s) = absorbAll 0x00000000#32 s

/-- Linearity and affinity in the start value (laws of R78, which the spec marks as derived). -/
def Obligations.CrcIsLinear : Prop :=
  (∀ s t : List Byte, s.length = t.length →
    absorbAll 0x00000000#32 (List.zipWith (· ^^^ ·) s t) = absorbAll 0x00000000#32 s ^^^ absorbAll 0x00000000#32 t) ∧
  ∀ (c : Word) (s : List Byte),
    absorbAll c s = absorbAll c (List.replicate s.length 0x00#8) ^^^ absorbAll 0x00000000#32 s

/-- Residue: a message followed by its CRC, most significant byte first, has CRC 0, from any start value (a law of R78,
which the spec marks as derived). -/
def Obligations.CrcResidueIsZero : Prop :=
  ∀ (c : Word) (s : List Byte),
    absorbAll c (s ++ [(absorbAll c s).extractLsb' 24 8, (absorbAll c s).extractLsb' 16 8,
      (absorbAll c s).extractLsb' 8 8, (absorbAll c s).extractLsb' 0 8]) = 0x00000000#32

/-- Error detection: two messages that differ only inside 32 consecutive bits have different CRCs, from any start value (a
law of R78, which the spec marks as general knowledge). -/
def Obligations.BurstErrorsChangeCrc : Prop :=
  ∀ (c : Word) (s t : List Byte) (before b1 b2 after : List Bool),
    messageBits s = before ++ b1 ++ after → messageBits t = before ++ b2 ++ after →
    b1.length = b2.length → b1.length ≤ 32 → b1 ≠ b2 → absorbAll c s ≠ absorbAll c t

/-- How a message is split into update commands is invisible: two sequences of updates with the same bytes leave the same
CRC, that of the bytes (the sentence of R30, which the spec marks as derived). -/
def Obligations.SplitIsInvisible : Prop :=
  ∀ (xs ys : List Instr) (s : State),
    (∀ i ∈ xs, messageBytes i ≠ []) → (∀ i ∈ ys, messageBytes i ≠ []) →
    xs.flatMap messageBytes = ys.flatMap messageBytes →
    ∃ t u : State, runCommands (xs.map encode) s = .next t ∧ runCommands (ys.map encode) s = .next u ∧
      t.crc = u.crc ∧ t.crc = absorbAll s.crc (xs.flatMap messageBytes)

/-- LOAD of a value read earlier resumes that computation, whatever commands came between; and bytes absorbed after a LOAD
continue the computation that had left the value loaded, from any start value (the corner case of R62, which the spec marks
as derived). -/
def Obligations.LoadResumesComputation : Prop :=
  (∀ (pre post : List Byte) (between : List Command) (s : State), ∃ r t : State,
    runCommands (assemble [.command (.init 0x00000000#32), .updb pre, .save]) s = .next r ∧
    runCommands (between ++ assemble [.restore r.rsp, .updb post]) r = .next t ∧
    t.crc = absorbAll 0x00000000#32 (pre ++ post)) ∧
  ∀ (c : Word) (earlier later : List Byte) (s : State), ∃ t : State,
    runCommands (encode (.load (absorbAll c earlier)) :: (updb later).map encode) s = .next t ∧
    t.crc = absorbAll c (earlier ++ later)

/-! ## Assembler lines and the Ogg page -/

/-- The pairs UPDB expands to absorb its bytes in order and no other, one pair for each four bytes begun; UPDS, ZERO4, SAVE,
RESTORE and CHECKB expand as R53 says; a real command and `.word` assemble to one pair each, and lines in order. -/
def Obligations.PseudoInstructionsExpand : Prop :=
  (∀ (bytes : List Byte) (s : State), ∃ t : State,
    runCommands (expandLine (.updb bytes)) s = .next t ∧ t.crc = absorbAll s.crc bytes ∧
    (updb bytes).flatMap messageBytes = bytes ∧ (updb bytes).length = (bytes.length + 3) / 4 ∧
    (∀ i ∈ updb bytes, i.operand = packLanes (messageBytes i)) ∧
    ∀ k, k < bytes.length / 4 → ∃ a, (updb bytes)[k]? = some (.upd4 a)) ∧
  (∀ i : Instr, expandLine (.command i) = [encode i]) ∧ (∀ c : Command, expandLine (.raw c) = [c]) ∧
  (∀ ls ms : List AsmLine, assemble (ls ++ ms) = assemble ls ++ assemble ms) ∧
  (∀ text : List Char, expandLine (.upds text) = expandLine (.updb (text.map asciiByte))) ∧
  expandLine .zero4 = [{ word := 0x0000000B#32, arg := 0x00000000#32 }] ∧
  expandLine .save = [{ word := 0x00000003#32, arg := 0x00000000#32 }] ∧
  (∀ v : Word, expandLine (.restore v) = [{ word := 0x00000002#32, arg := v }]) ∧
  ∀ b0 b1 b2 b3 : Byte, expandLine (.checkb b0 b1 b2 b3) = [{
    word := 0x00000010#32
    arg := b0.setWidth 32 ||| (b1.setWidth 32 <<< 8) ||| (b2.setWidth 32 <<< 16) ||| (b3.setWidth 32 <<< 24) }]

/-- The layout of a page: length, capture pattern, and the place and byte order of the stored CRC (20_memory.md section 5,
whose offsets are marked as derived and whose byte order as general knowledge); the checksum does not see the stored CRC. -/
def Obligations.PageLayoutAndStoredCrc : Prop :=
  ∀ p : Page, PageFits p →
    (pageBytes p).length = 27 + p.segments.length + p.body.length ∧ (pageBytes p).length ≤ 65307 ∧
    (pageBytes p).take 4 = [0x4F#8, 0x67#8, 0x67#8, 0x53#8] ∧ (pageBytes p)[4]? = some 0x00#8 ∧
    (pageBytes p)[5]? = some p.flags ∧
    (∀ k < 8, (pageBytes p)[6 + k]? = some (p.granule.extractLsb' (8 * k) 8)) ∧
    (∀ k < 4, (pageBytes p)[14 + k]? = some (p.serial.extractLsb' (8 * k) 8)) ∧
    (∀ k < 4, (pageBytes p)[18 + k]? = some (p.sequenceNumber.extractLsb' (8 * k) 8)) ∧
    (∀ k < 4, (pageBytes p)[22 + k]? = some (p.storedCrc.extractLsb' (8 * k) 8)) ∧
    (pageBytes p)[26]? = some (BitVec.ofNat 8 p.segments.length) ∧
    (pageBytes p).drop 27 = p.segments ++ p.body ∧
    storedCrcOf (pageBytes p) = p.storedCrc ∧
    pageChecksum (pageBytes p) = absorbAll 0x00000000#32 (pageBytes { p with storedCrc := 0x00000000#32 })

/-- The commands a host issues to check a page run to their end from every state; CHECK responds 0 and MATCH is set
exactly when the page's checksum equals its stored CRC, and a page that fails is recorded in MISM (R37, R39, which the
spec marks as derived). -/
def Obligations.PageCheckDecidesAcceptance : Prop :=
  ∀ (page : List Byte) (s : State), ∃ t : State,
    runCommands (pageCheck page) s = .next t ∧ t.crc = pageChecksum page ∧
    t.rsp = pageChecksum page ^^^ storedCrcOf page ∧ chk t.status = true ∧
    (PageAccepted page ↔ t.rsp = 0x00000000#32) ∧ (PageAccepted page ↔ matched t.status = true) ∧
    (¬ PageAccepted page → mism t.status = true)

/-- A good page with one byte outside its CRC field changed is no longer accepted (95_test_vectors.md S3, on the error
detection of R78). -/
def Obligations.ChangedByteIsRejected : Prop :=
  ∀ (page : List Byte) (k : Nat) (v : Byte), 26 ≤ page.length → k < page.length → (k < 22 ∨ 26 ≤ k) →
    page[k]? ≠ some v → PageAccepted page → ¬ PageAccepted (page.set k v)

/-! ## Reset and the pins -/

/-- R115: reset at any edge, in any state, leaves CRC, STATUS and RSP zero, no command in flight, cmd_ready and rsp_valid
at 0, and that is the launch state. -/
def Obligations.ResetLeavesZeros : Prop :=
  (State.reset.crc = 0x00000000#32 ∧ State.reset.status = 0x00000000#32 ∧ State.reset.rsp = 0x00000000#32 ∧
    State.reset.rspValid = false ∧ State.reset.inFlight = none) ∧
  ∀ (w : Nat) (i : PinsIn) (s : State), i.rst = true → ∃ t : State,
    edge w i s = .next t ∧
    t.crc = 0x00000000#32 ∧ t.status = 0x00000000#32 ∧ t.rsp = 0x00000000#32 ∧ t.inFlight = none ∧
    outputs i.rst t = { cmdReady := false, rspValid := false, rsp := 0x00000000#32 } ∧
    chk t.status = false ∧ matched t.status = false ∧ mism t.status = false ∧ ill t.status = false

/-- R116: a command in flight at reset completes nowhere, and the state after reset is the same whether or not it had
taken effect. -/
def Obligations.ResetAbandonsCommandInFlight : Prop :=
  ∀ (w : Nat) (i : PinsIn) (s t : State) (f : InFlight), i.rst = true → s.inFlight = some f →
    perform f.command { s with inFlight := none } = .next t →
    completesAt i s = [] ∧ edge w i s = edge w i t ∧ ∃ u, edge w i s = .next u ∧ u.rspValid = false

/-- After reset the block is idle and ready as soon as rst is 0, and a command offered is accepted (R117, as log entry 8
reads it). -/
def Obligations.ReadyAfterReset : Prop :=
  ∀ (w v : Nat) (i j : PinsIn) (s t : State), i.rst = true → j.rst = false → edge w i s = .next t →
    (outputs j.rst t).cmdReady = true ∧
    (j.cmdValid = true → accepts j t = true ∧
      ∃ u, edge v j t = .next u ∧ u.inFlight = some { command := { word := j.cmd, arg := j.arg }, wait := v })

/-- A command accepted by an idle block with a latency of w + 1 edges: for w edges nothing but cmd_ready and rsp_valid
shows anything, at edge w + 1 its effects and its response appear, whatever the pins do meanwhile (R44). -/
def Obligations.AcceptedCommandCompletes : Prop :=
  ∀ (w : Nat) (i : PinsIn) (s : State) (es : List (Nat × PinsIn)),
    s.inFlight = none → accepts i s = true → (∀ e ∈ es, e.2.rst = false) →
    (es.length = w + 1 → runEdges ((w, i) :: es) s = perform { word := i.cmd, arg := i.arg } s) ∧
    (es.length ≤ w → ∃ t, runEdges ((w, i) :: es) s = .next t ∧ t.crc = s.crc ∧ t.status = s.status ∧
      outputs false t = { cmdReady := false, rspValid := false, rsp := s.rsp })

/-- cmd_ready is 1 exactly when rst is 0 and no command is in flight, a command is accepted exactly when it is offered and
the block is ready, and pins sampled at any other edge, rst apart, have no effect (R44, R121). -/
def Obligations.PinsSampledOnlyAtAcceptance : Prop :=
  (∀ (r : Bool) (s : State), (outputs r s).cmdReady = true ↔ r = false ∧ s.inFlight = none) ∧
  (∀ (i : PinsIn) (s : State),
    accepts i s = true ↔ i.rst = false ∧ i.cmdValid = true ∧ (outputs i.rst s).cmdReady = true) ∧
  (∀ (w : Nat) (i : PinsIn) (s : State), accepts i s = true → ∃ t, edge w i s = .next t ∧
    t.inFlight = some { command := { word := i.cmd, arg := i.arg }, wait := w }) ∧
  ∀ (v w : Nat) (i j : PinsIn) (s : State), i.rst = j.rst → accepts i s = false → accepts j s = false →
    edge v i s = edge w j s

/-- R17: RSP is driven on the port, and changes only when a command completes, when it takes that command's response, or at
reset, when it becomes 0; no command reads RSP. -/
def Obligations.ResponseRegisterHolds : Prop :=
  (∀ (w : Nat) (i : PinsIn) (s t : State), edge w i s = .next t →
    (i.rst = true → t.rsp = 0x00000000#32) ∧
    (i.rst = false → completesAt i s = [] → t.rsp = s.rsp) ∧
    ∀ c, completesAt i s = [c] → perform c { s with inFlight := none } = .next t) ∧
  (∀ (c : Command) (s : State) (y : Word), perform c { s with rsp := y } = perform c s) ∧
  (∀ (r : Bool) (s : State), (outputs r s).rsp = s.rsp) ∧
  State.reset.rsp = 0x00000000#32

/-- The block changes CRC and STATUS only at the completion of a command or at reset, and rsp_valid is 1 exactly in the
cycle after a completion (R44; 70_reset_and_hazards.md section 2). That what the host has yet to issue stands in the state
and that no edge, reset included, changes it is the model's choice (log entries 1 and 7). -/
def Obligations.EdgeChangesOnlyAtCompletion : Prop :=
  ∀ (w : Nat) (i : PinsIn) (s t : State), edge w i s = .next t →
    (i.rst = false → completesAt i s = [] → t.crc = s.crc ∧ t.status = s.status) ∧
    (t.rspValid = true ↔ completesAt i s ≠ []) ∧ t.program = s.program

/-- The clocked block, driven in any way without reset, holds the CRC, STATUS and RSP that performing the completed
commands in order gives: the port with time abstracted is the step of R5 (R44). -/
def Obligations.PinsRefineCommands : Prop :=
  ∀ (es : List (Nat × PinsIn)) (s : State), (∀ e ∈ es, e.2.rst = false) →
    ∃ t u : State, runEdges es s = .next t ∧ runCommands (completed es s) s = .next u ∧
      t.crc = u.crc ∧ t.status = u.status ∧ t.rsp = u.rsp

/-- An idle block whose host holds its next pair at the pins reaches, after the edge that accepts it and its latency of
w + 1 edges, exactly the state one step reaches; so does a block with a command in flight that has still to wait n edges,
after n + 1 edges (the pairs standing in the state is the model's choice, log entry 1; that a step completes a command in
flight is log entry 4). -/
def Obligations.TicksRefineStep : Prop :=
  (∀ (s : State) (c : Command) (cs : List Command) (w : Nat) (ws : List Nat),
    s.inFlight = none → s.program = c :: cs → ws.length = w + 1 → ticks (w :: ws) s = step s) ∧
  ∀ (s : State) (c : Command) (n : Nat) (ws : List Nat),
    s.inFlight = some { command := c, wait := n } → ws.length = n + 1 → ticks ws s = step s

/-! ## Invariants -/

/-- The reset state meets the invariant. -/
def Obligations.ResetMeetsInvariant : Prop := Inv State.reset

/-- Every step keeps the invariant: reserved bits of STATUS zero, MATCH implies CHK, CHK without MATCH implies MISM, no
command in flight while rsp_valid is 1 (R12, R13). -/
def Obligations.StepKeepsInvariant : Prop :=
  ∀ s t : State, Inv s → step s = .next t → Inv t

/-- Every clock edge keeps the invariant, reset included, and establishes it from any state at reset. -/
def Obligations.EdgeKeepsInvariant : Prop :=
  (∀ (w : Nat) (i : PinsIn) (s t : State), Inv s → edge w i s = .next t → Inv t) ∧
  ∀ (w : Nat) (i : PinsIn) (s t : State), i.rst = true → edge w i s = .next t → Inv t

/-- Every command, legal or not, keeps each of the two implications between the fields of STATUS (R12, which marks them as
derived); and every command but CLRST keeps the stored bits 31:4 as they are (the model's choice, log entry 5). -/
def Obligations.CommandsKeepStatusRelations : Prop :=
  ∀ (c : Command) (s t : State), perform c s = .next t →
    (MatchImpliesChk s → MatchImpliesChk t) ∧ (MismatchRecorded s → MismatchRecorded t) ∧
    (c.word ≠ clrstWord → t.status &&& 0xFFFFFFF0#32 = s.status &&& 0xFFFFFFF0#32)

/-- A command raises at most one event; one that raises ILLEGAL executes nothing else, and one that raises MISMATCH is legal;
reset overrides everything, a command in flight included (R104, which the spec marks as derived). -/
def Obligations.AtMostOneEventPerCommand : Prop :=
  (∀ (c : Command) (s t : State), perform c s = .next t →
    ¬ (ill s.status = false ∧ mism s.status = false ∧ ill t.status = true ∧ mism t.status = true) ∧
    (ill s.status = false → ill t.status = true →
      t = { s with status := s.status ||| 0x00000008#32, rsp := 0x00000000#32, rspValid := true }) ∧
    (mism s.status = false → mism t.status = true → ∃ a, decode c = .ok (.check a))) ∧
  ∀ (w : Nat) (i : PinsIn) (s : State), i.rst = true → ∃ t : State,
    edge w i s = .next t ∧ completesAt i s = [] ∧ t.inFlight = none ∧ ill t.status = false ∧ mism t.status = false
end

