-- ==== Sys2Proof/Laws/Decode.lean ====
section
/-!
SUPPORT. The fields of a command word and what decoding does with them (spec/30_encoding.md rules R45, R47 and R48).
-/
namespace Sys2Proof

@[simp] theorem opcodeField_setWidth (op : Byte) : opcodeField (op.setWidth 32) = op := by
  ext k hk
  rw [← BitVec.getLsbD_eq_getElem, ← BitVec.getLsbD_eq_getElem]
  simp only [opcodeField, BitVec.getLsbD_extractLsb', BitVec.getLsbD_setWidth]
  simp [hk]
  omega

@[simp] theorem reservedField_setWidth (op : Byte) : reservedField (op.setWidth 32) = 0#24 := by
  ext k hk
  simp [reservedField]

/-- A word is determined by its two fields. -/
theorem word_of_fields {w : Word} (h : reservedField w = 0#24) : (opcodeField w).setWidth 32 = w := by
  ext k hk
  by_cases h8 : k < 8
  · simp [opcodeField, h8, BitVec.getLsbD_eq_getElem hk]
  · have hk' : (reservedField w).getLsbD (k - 8) = false := by rw [h]; simp
    simp only [reservedField, BitVec.getLsbD_extractLsb'] at hk'
    have h1 : k - 8 < 24 := by omega
    have h2 : 8 + (k - 8) = k := by omega
    rw [h2] at hk'
    simp [h1] at hk'
    simp [opcodeField, h8]
    exact (by simpa [BitVec.getLsbD_eq_getElem hk] using hk')

/-- With the reserved field zero, the opcode decides. -/
theorem decode_setWidth (op : Byte) (a : Word) :
    decode { word := op.setWidth 32, arg := a } =
      match decodeOpcode op a with
      | some i => .ok i
      | none => .error .unassignedOpcode := by
  cases h : decodeOpcode op a <;> simp [decode, opcodeField_setWidth, reservedField_setWidth, h]

theorem decode_of_reserved {c : Command} (h : reservedField c.word ≠ 0#24) : decode c = .error .reservedBitsSet := by
  simp only [decode, h, if_false]

/-- An opcode that selects a command is that command's opcode, and the operand is carried along whole. -/
theorem decodeOpcode_eq_some {op : Byte} {a : Word} {i : Instr} (h : decodeOpcode op a = some i) :
    i.opcode = op ∧ i.operand = a := by
  unfold decodeOpcode at h
  iterate 13
    obtain ⟨hop, hi⟩ | ⟨_, h⟩ := ite_eq_iff.mp h
    · cases hi
      exact ⟨hop.symm, rfl⟩
  cases h

/-- An assigned opcode extended with zeros is a legal word, whatever the operand. -/
theorem wellFormed_setWidth {op : Byte} (h : assignedOpcodes.contains op.toNat = true) (a : Word) :
    Command.WellFormed { word := op.setWidth 32, arg := a } := by
  refine ⟨?_, ?_⟩
  · simp only [Command.rsvClear, beq_iff_eq]
    ext k hk
    interval_cases k <;> simp
  · have hw : op.setWidth 32 &&& 0x000000FF#32 = op.setWidth 32 := by
      ext k hk
      interval_cases k <;> simp
    simp only [Command.opAssigned, hw, BitVec.toNat_setWidth]
    rw [Nat.mod_eq_of_lt (by omega)]
    exact h

end Sys2Proof
end

