-- ==== Sys2Proof/Laws/Flags.lean ====
section
/-!
SUPPORT. What each computation on STATUS does to each of its fields and to the reserved bits (spec/10_state.md rules R12 and
R13).
-/
namespace Sys2Proof.Machine

@[simp] theorem chk_clearCheck (st : Word) : chk (clearCheck st) = false := by
  simp [chk, clearCheck, chkMask, matchMask]

@[simp] theorem matched_clearCheck (st : Word) : matched (clearCheck st) = false := by
  simp [matched, clearCheck, chkMask, matchMask]

@[simp] theorem mism_clearCheck (st : Word) : mism (clearCheck st) = mism st := by
  simp [mism, clearCheck, chkMask, matchMask]

@[simp] theorem ill_clearCheck (st : Word) : ill (clearCheck st) = ill st := by
  simp [ill, clearCheck, chkMask, matchMask]

@[simp] theorem chk_signalIllegal (st : Word) : chk (signalIllegal st) = chk st := by
  simp [chk, signalIllegal, illMask]

@[simp] theorem matched_signalIllegal (st : Word) : matched (signalIllegal st) = matched st := by
  simp [matched, signalIllegal, illMask]

@[simp] theorem mism_signalIllegal (st : Word) : mism (signalIllegal st) = mism st := by
  simp [mism, signalIllegal, illMask]

@[simp] theorem ill_signalIllegal (st : Word) : ill (signalIllegal st) = true := by
  simp [ill, signalIllegal, illMask]

@[simp] theorem chk_checkStatus (crc a st : Word) : chk (checkStatus crc a st) = true := by
  unfold checkStatus
  split <;> simp [chk, signalMismatch, chkMask, matchMask, mismMask]

@[simp] theorem matched_checkStatus (crc a st : Word) : matched (checkStatus crc a st) = decide (crc = a) := by
  unfold checkStatus
  split <;> simp_all [matched, signalMismatch, chkMask, matchMask, mismMask]

@[simp] theorem mism_checkStatus (crc a st : Word) :
    mism (checkStatus crc a st) = (mism st || decide (crc ≠ a)) := by
  unfold checkStatus
  split <;> simp_all [mism, signalMismatch, chkMask, matchMask, mismMask]

@[simp] theorem ill_checkStatus (crc a st : Word) : ill (checkStatus crc a st) = ill st := by
  unfold checkStatus
  split <;> simp [ill, signalMismatch, chkMask, matchMask, mismMask]

@[simp] theorem chk_clearedStatus : chk clearedStatus = false := by decide
@[simp] theorem matched_clearedStatus : matched clearedStatus = false := by decide
@[simp] theorem mism_clearedStatus : mism clearedStatus = false := by decide
@[simp] theorem ill_clearedStatus : ill clearedStatus = false := by decide

/-- No computation on STATUS but CLRST's changes the reserved bits. -/
theorem reserved_clearCheck (st : Word) : clearCheck st &&& 0xFFFFFFF0#32 = st &&& 0xFFFFFFF0#32 := by
  have h : (~~~(chkMask ||| matchMask)) &&& 0xFFFFFFF0#32 = 0xFFFFFFF0#32 := by decide
  rw [clearCheck, BitVec.and_assoc, h]

theorem reserved_signalIllegal (st : Word) : signalIllegal st &&& 0xFFFFFFF0#32 = st &&& 0xFFFFFFF0#32 := by
  have h : illMask &&& 0xFFFFFFF0#32 = 0#32 := by decide
  rw [signalIllegal, BitVec.and_comm, BitVec.and_or_distrib_left, BitVec.and_comm _ illMask, h, BitVec.or_zero,
    BitVec.and_comm]

theorem reserved_checkStatus (crc a st : Word) : checkStatus crc a st &&& 0xFFFFFFF0#32 = st &&& 0xFFFFFFF0#32 := by
  ext k hk
  unfold checkStatus signalMismatch chkMask matchMask mismMask
  split <;> interval_cases k <;> simp

end Sys2Proof.Machine
end

