-- ==== Sys2Proof/Laws/Ops.lean ====
section
/-!
SUPPORT. What the shared operations on CRC and on operands give, one lemma each (spec/10_state.md rule R15, 41_update.md
rules R70 to R72, 20_memory.md rule R29).
-/
namespace Sys2Proof.Machine

theorem absorbAll_nil (c : Word) : absorbAll c [] = c := rfl

theorem absorbAll_cons (c : Word) (b : Byte) (bytes : List Byte) :
    absorbAll c (b :: bytes) = absorbAll (absorb c b) bytes := rfl

theorem crcSteps_zero (r : Word) : crcSteps 0 r = r := rfl

theorem crcSteps_succ (n : Nat) (r : Word) : crcSteps (n + 1) r = crcSteps n (crcStep r) := rfl

/-- Step is linear over GF(2). -/
theorem crcStep_xor (r q : Word) : crcStep (r ^^^ q) = crcStep r ^^^ crcStep q := by
  unfold crcStep
  rw [BitVec.shiftLeft_xor_distrib, BitVec.getLsbD_xor]
  have hp : Config.poly ^^^ Config.poly = 0#32 := BitVec.xor_self
  cases r.getLsbD 31 <;> cases q.getLsbD 31 <;> simp <;> ac_nf
  rw [← BitVec.xor_assoc, hp, BitVec.zero_xor]

theorem crcSteps_xor (n : Nat) (r q : Word) : crcSteps n (r ^^^ q) = crcSteps n r ^^^ crcSteps n q := by
  induction n generalizing r q with
  | zero => rfl
  | succ n ih => rw [crcSteps_succ, crcSteps_succ, crcSteps_succ, crcStep_xor, ih]

/-- The lanes of an operand, written out. -/
theorem lanes_one (a : Word) : lanes 1 a = [a.extractLsb' 0 8] := rfl

theorem lanes_two (a : Word) : lanes 2 a = [a.extractLsb' 0 8, a.extractLsb' 8 8] := rfl

theorem lanes_three (a : Word) : lanes 3 a = [a.extractLsb' 0 8, a.extractLsb' 8 8, a.extractLsb' 16 8] := rfl

theorem lanes_four (a : Word) :
    lanes 4 a = [a.extractLsb' 0 8, a.extractLsb' 8 8, a.extractLsb' 16 8, a.extractLsb' 24 8] := rfl

theorem length_lanes (n : Nat) (a : Word) : (lanes n a).length = n := by
  induction n with
  | zero => rfl
  | succ n ih => simp [lanes, ih]

/-- Packing puts byte k into lane k. -/
theorem lanes_packLanes_four (b0 b1 b2 b3 : Byte) : lanes 4 (packLanes [b0, b1, b2, b3]) = [b0, b1, b2, b3] := by
  rw [lanes_four]
  simp only [packLanes, List.cons.injEq, and_true]
  refine ⟨?_, ?_, ?_, ?_⟩ <;> ext k hk <;> interval_cases k <;> simp

theorem lanes_packLanes_three (b0 b1 b2 : Byte) : lanes 3 (packLanes [b0, b1, b2]) = [b0, b1, b2] := by
  rw [lanes_three]
  simp only [packLanes, List.cons.injEq, and_true]
  refine ⟨?_, ?_, ?_⟩ <;> ext k hk <;> interval_cases k <;> simp

theorem lanes_packLanes_two (b0 b1 : Byte) : lanes 2 (packLanes [b0, b1]) = [b0, b1] := by
  rw [lanes_two]
  simp only [packLanes, List.cons.injEq, and_true]
  refine ⟨?_, ?_⟩ <;> ext k hk <;> interval_cases k <;> simp

theorem lanes_packLanes_one (b0 : Byte) : lanes 1 (packLanes [b0]) = [b0] := by
  rw [lanes_one]
  simp only [packLanes, List.cons.injEq, and_true]
  ext k hk
  interval_cases k <;> simp

end Sys2Proof.Machine
end

