-- ==== Sys2Proof/Laws/PerInstr.lean ====
section
/-!
SUPPORT. Statements about every command as syntax, one lemma per constructor of Instr.
-/
namespace Sys2Proof.Laws.RoundTrip

/-- The encoding of a command is legal and decodes to the command (spec/30_encoding.md rules R47 and R48). -/
def Statement (i : Instr) : Prop := (encode i).WellFormed ∧ decode (encode i) = .ok i

theorem nop (a : Word) : Statement (.nop a) := ⟨wellFormed_setWidth rfl a, decode_setWidth _ a⟩
theorem init (a : Word) : Statement (.init a) := ⟨wellFormed_setWidth rfl a, decode_setWidth _ a⟩
theorem load (a : Word) : Statement (.load a) := ⟨wellFormed_setWidth rfl a, decode_setWidth _ a⟩
theorem read (a : Word) : Statement (.read a) := ⟨wellFormed_setWidth rfl a, decode_setWidth _ a⟩
theorem upd1 (a : Word) : Statement (.upd1 a) := ⟨wellFormed_setWidth rfl a, decode_setWidth _ a⟩
theorem upd2 (a : Word) : Statement (.upd2 a) := ⟨wellFormed_setWidth rfl a, decode_setWidth _ a⟩
theorem upd3 (a : Word) : Statement (.upd3 a) := ⟨wellFormed_setWidth rfl a, decode_setWidth _ a⟩
theorem upd4 (a : Word) : Statement (.upd4 a) := ⟨wellFormed_setWidth rfl a, decode_setWidth _ a⟩
theorem check (a : Word) : Statement (.check a) := ⟨wellFormed_setWidth rfl a, decode_setWidth _ a⟩
theorem lutrd (a : Word) : Statement (.lutrd a) := ⟨wellFormed_setWidth rfl a, decode_setWidth _ a⟩
theorem poly (a : Word) : Statement (.poly a) := ⟨wellFormed_setWidth rfl a, decode_setWidth _ a⟩
theorem stat (a : Word) : Statement (.stat a) := ⟨wellFormed_setWidth rfl a, decode_setWidth _ a⟩
theorem clrst (a : Word) : Statement (.clrst a) := ⟨wellFormed_setWidth rfl a, decode_setWidth _ a⟩

end Sys2Proof.Laws.RoundTrip
end

