-- ==== Sys2Proof/Laws/State.lean ====
section
/-!
SUPPORT. What each update of the state leaves in each field, so that no proof unfolds a record update.
-/
namespace Sys2Proof.Machine

@[simp] theorem writeCrc_crc (v : Word) (s : State) : (writeCrc v s).crc = v := rfl
@[simp] theorem writeCrc_status (v : Word) (s : State) : (writeCrc v s).status = clearCheck s.status := rfl
@[simp] theorem writeCrc_rsp (v : Word) (s : State) : (writeCrc v s).rsp = s.rsp := rfl
@[simp] theorem writeCrc_rspValid (v : Word) (s : State) : (writeCrc v s).rspValid = s.rspValid := rfl
@[simp] theorem writeCrc_inFlight (v : Word) (s : State) : (writeCrc v s).inFlight = s.inFlight := rfl
@[simp] theorem writeCrc_program (v : Word) (s : State) : (writeCrc v s).program = s.program := rfl

@[simp] theorem writeStatus_crc (v : Word) (s : State) : (writeStatus v s).crc = s.crc := rfl
@[simp] theorem writeStatus_status (v : Word) (s : State) : (writeStatus v s).status = v := rfl
@[simp] theorem writeStatus_rsp (v : Word) (s : State) : (writeStatus v s).rsp = s.rsp := rfl
@[simp] theorem writeStatus_rspValid (v : Word) (s : State) : (writeStatus v s).rspValid = s.rspValid := rfl
@[simp] theorem writeStatus_inFlight (v : Word) (s : State) : (writeStatus v s).inFlight = s.inFlight := rfl
@[simp] theorem writeStatus_program (v : Word) (s : State) : (writeStatus v s).program = s.program := rfl

@[simp] theorem respond_crc (y : Word) (s : State) : (respond y s).crc = s.crc := rfl
@[simp] theorem respond_status (y : Word) (s : State) : (respond y s).status = s.status := rfl
@[simp] theorem respond_rsp (y : Word) (s : State) : (respond y s).rsp = y := rfl
@[simp] theorem respond_rspValid (y : Word) (s : State) : (respond y s).rspValid = true := rfl
@[simp] theorem respond_inFlight (y : Word) (s : State) : (respond y s).inFlight = s.inFlight := rfl
@[simp] theorem respond_program (y : Word) (s : State) : (respond y s).program = s.program := rfl

@[simp] theorem update_crc (bytes : List Byte) (s : State) : (update bytes s).crc = absorbAll s.crc bytes := rfl
@[simp] theorem update_status (bytes : List Byte) (s : State) : (update bytes s).status = clearCheck s.status := rfl
@[simp] theorem update_rsp (bytes : List Byte) (s : State) : (update bytes s).rsp = absorbAll s.crc bytes := rfl
@[simp] theorem update_rspValid (bytes : List Byte) (s : State) : (update bytes s).rspValid = true := rfl
@[simp] theorem update_inFlight (bytes : List Byte) (s : State) : (update bytes s).inFlight = s.inFlight := rfl
@[simp] theorem update_program (bytes : List Byte) (s : State) : (update bytes s).program = s.program := rfl

@[simp] theorem illegalCommand_crc (s : State) : (illegalCommand s).crc = s.crc := rfl
@[simp] theorem illegalCommand_status (s : State) : (illegalCommand s).status = signalIllegal s.status := rfl
@[simp] theorem illegalCommand_rsp (s : State) : (illegalCommand s).rsp = 0x00000000#32 := rfl
@[simp] theorem illegalCommand_rspValid (s : State) : (illegalCommand s).rspValid = true := rfl
@[simp] theorem illegalCommand_inFlight (s : State) : (illegalCommand s).inFlight = s.inFlight := rfl
@[simp] theorem illegalCommand_program (s : State) : (illegalCommand s).program = s.program := rfl

@[simp] theorem idle_crc (s : State) : (idle s).crc = s.crc := rfl
@[simp] theorem idle_status (s : State) : (idle s).status = s.status := rfl
@[simp] theorem idle_rsp (s : State) : (idle s).rsp = s.rsp := rfl
@[simp] theorem idle_rspValid (s : State) : (idle s).rspValid = false := rfl
@[simp] theorem idle_inFlight (s : State) : (idle s).inFlight = s.inFlight := rfl
@[simp] theorem idle_program (s : State) : (idle s).program = s.program := rfl

@[simp] theorem issueNext_crc (c : Command) (s : State) : (issueNext c s).crc = s.crc := rfl
@[simp] theorem issueNext_status (c : Command) (s : State) : (issueNext c s).status = s.status := rfl
@[simp] theorem issueNext_rsp (c : Command) (s : State) : (issueNext c s).rsp = s.rsp := rfl
@[simp] theorem issueNext_rspValid (c : Command) (s : State) : (issueNext c s).rspValid = s.rspValid := rfl
@[simp] theorem issueNext_inFlight (c : Command) (s : State) : (issueNext c s).inFlight = none := rfl
@[simp] theorem issueNext_program (c : Command) (s : State) : (issueNext c s).program = c :: s.program := rfl

@[simp] theorem holdCommand_crc (wait : Nat) (c : Command) (s : State) : (holdCommand wait c s).crc = s.crc := rfl
@[simp] theorem holdCommand_status (wait : Nat) (c : Command) (s : State) : (holdCommand wait c s).status = s.status := rfl
@[simp] theorem holdCommand_rsp (wait : Nat) (c : Command) (s : State) : (holdCommand wait c s).rsp = s.rsp := rfl
@[simp] theorem holdCommand_rspValid (wait : Nat) (c : Command) (s : State) : (holdCommand wait c s).rspValid = false := rfl
@[simp] theorem holdCommand_inFlight (wait : Nat) (c : Command) (s : State) : (holdCommand wait c s).inFlight = some { command := c, wait := wait } := rfl
@[simp] theorem holdCommand_program (wait : Nat) (c : Command) (s : State) : (holdCommand wait c s).program = s.program := rfl

@[simp] theorem resetBlock_crc (s : State) : (resetBlock s).crc = 0x00000000#32 := rfl
@[simp] theorem resetBlock_status (s : State) : (resetBlock s).status = 0x00000000#32 := rfl
@[simp] theorem resetBlock_rsp (s : State) : (resetBlock s).rsp = 0x00000000#32 := rfl
@[simp] theorem resetBlock_rspValid (s : State) : (resetBlock s).rspValid = false := rfl
@[simp] theorem resetBlock_inFlight (s : State) : (resetBlock s).inFlight = none := rfl
@[simp] theorem resetBlock_program (s : State) : (resetBlock s).program = s.program := rfl

end Sys2Proof.Machine
end

