-- ==== Sys2Proof/Laws/Step.lean ====
section
/-!
SUPPORT. What performing a command, fetching, a step and a clock edge can do, each said once (spec/00_scope.md rule R5,
30_encoding.md rule R44, 70_reset_and_hazards.md rule R115).
-/
namespace Sys2Proof.Machine

/-- A legal command: a response is given, and beside it at most CRC (with CHK and MATCH cleared) or STATUS is written. -/
theorem exec_inversion {i : Instr} {s t : State} (h : exec i s = .next t) :
    ∃ y u, t = respond y u ∧ (u = s ∨ (∃ v, u = writeCrc v s) ∨ ∃ v, u = writeStatus v s) := by
  cases i <;> cases h
  case nop => exact ⟨_, _, rfl, .inl rfl⟩
  case init => exact ⟨_, _, rfl, .inr (.inl ⟨_, rfl⟩)⟩
  case load => exact ⟨_, _, rfl, .inr (.inl ⟨_, rfl⟩)⟩
  case read => exact ⟨_, _, rfl, .inl rfl⟩
  case upd1 => exact ⟨_, _, rfl, .inr (.inl ⟨_, rfl⟩)⟩
  case upd2 => exact ⟨_, _, rfl, .inr (.inl ⟨_, rfl⟩)⟩
  case upd3 => exact ⟨_, _, rfl, .inr (.inl ⟨_, rfl⟩)⟩
  case upd4 => exact ⟨_, _, rfl, .inr (.inl ⟨_, rfl⟩)⟩
  case check => exact ⟨_, _, rfl, .inr (.inr ⟨_, rfl⟩)⟩
  case lutrd => exact ⟨_, _, rfl, .inl rfl⟩
  case poly => exact ⟨_, _, rfl, .inl rfl⟩
  case stat => exact ⟨_, _, rfl, .inl rfl⟩
  case clrst => exact ⟨_, _, rfl, .inr (.inr ⟨_, rfl⟩)⟩

theorem perform_of_decode_ok {c : Command} {i : Instr} (s : State) (h : decode c = .ok i) : perform c s = exec i s := by
  simp only [perform, h]

theorem perform_of_decode_error {c : Command} {e : DecodeError} (s : State) (h : decode c = .error e) :
    perform c s = .next (illegalCommand s) := by
  simp only [perform, h]

theorem fetch_of_inFlight {s : State} {f : InFlight} (h : s.inFlight = some f) :
    fetch s = some (f.command, { s with inFlight := none }) := by
  simp only [fetch, h]

theorem fetch_of_program {s : State} {c : Command} {cs : List Command} (h : s.inFlight = none) (hp : s.program = c :: cs) :
    fetch s = some (c, { s with program := cs }) := by
  simp only [fetch, h, hp]

theorem fetch_of_nothing {s : State} (h : s.inFlight = none) (hp : s.program = []) : fetch s = none := by
  simp only [fetch, h, hp]

theorem step_of_fetch {s t : State} {c : Command} (h : fetch s = some (c, t)) : step s = perform c t := by
  simp only [step, h]

theorem edge_of_rst {w : Nat} {i : PinsIn} (s : State) (h : i.rst = true) : edge w i s = .next (resetBlock s) := by
  simp only [edge, h, if_true]

theorem edge_completing {w : Nat} {i : PinsIn} {s : State} {c : Command} (h : i.rst = false)
    (hf : s.inFlight = some { command := c, wait := 0 }) : edge w i s = perform c { s with inFlight := none } := by
  simp [edge, h, hf]

theorem edge_waiting {w n : Nat} {i : PinsIn} {s : State} {c : Command} (h : i.rst = false)
    (hf : s.inFlight = some { command := c, wait := n + 1 }) : edge w i s = .next (holdCommand n c s) := by
  simp [edge, h, hf]

theorem edge_accepting {w : Nat} {i : PinsIn} {s : State} (h : i.rst = false) (hf : s.inFlight = none)
    (hv : i.cmdValid = true) : edge w i s = .next (holdCommand w { word := i.cmd, arg := i.arg } s) := by
  simp [edge, h, hf, hv]

theorem edge_idle {w : Nat} {i : PinsIn} {s : State} (h : i.rst = false) (hf : s.inFlight = none)
    (hv : i.cmdValid = false) : edge w i s = .next (idle s) := by
  simp [edge, h, hf, hv]

/-- Any command: a response is given, and beside it at most CRC (with CHK and MATCH cleared) or STATUS is written. -/
theorem perform_inversion {c : Command} {s t : State} (h : perform c s = .next t) :
    ∃ y u, t = respond y u ∧ (u = s ∨ (∃ v, u = writeCrc v s) ∨ ∃ v, u = writeStatus v s) := by
  unfold perform at h
  split at h
  · exact exec_inversion h
  · cases h
    exact ⟨_, _, rfl, .inr (.inr ⟨_, rfl⟩)⟩

/-- What no command touches, and that every command raises rsp_valid. -/
theorem perform_frame {c : Command} {s t : State} (h : perform c s = .next t) :
    t.inFlight = s.inFlight ∧ t.program = s.program ∧ t.rspValid = true := by
  obtain ⟨y, u, rfl, rfl | ⟨v, rfl⟩ | ⟨v, rfl⟩⟩ := perform_inversion h <;> simp

/-- What a command answers does not depend on RSP, rsp_valid, the command in flight or the host's program. -/
theorem perform_context (c : Command) (s : State) (f : Option InFlight) (p : List Command) (y : Word) (b : Bool) :
    perform c { s with inFlight := f, program := p, rsp := y, rspValid := b } =
      andThen (perform c s) (fun t => .next { t with inFlight := f, program := p }) := by
  unfold perform
  split
  · rename_i i _
    cases i <;> rfl
  · rfl

/-- What a clock edge can do: reset, complete the command in flight, or go on without a completion. -/
theorem edge_inversion {w : Nat} {i : PinsIn} {s t : State} (h : edge w i s = .next t) :
    (i.rst = true ∧ completesAt i s = [] ∧ t = resetBlock s) ∨
    (i.rst = false ∧ ∃ c, s.inFlight = some { command := c, wait := 0 } ∧ completesAt i s = [c] ∧
      perform c { s with inFlight := none } = .next t) ∨
    (i.rst = false ∧ completesAt i s = [] ∧
      ((∃ c n, s.inFlight = some { command := c, wait := n + 1 } ∧ t = holdCommand n c s) ∨
       (s.inFlight = none ∧ i.cmdValid = true ∧ t = holdCommand w { word := i.cmd, arg := i.arg } s) ∨
       (s.inFlight = none ∧ i.cmdValid = false ∧ t = idle s))) := by
  cases hr : i.rst with
  | true =>
    rw [edge_of_rst s hr] at h
    cases h
    exact .inl ⟨rfl, by simp [completesAt, hr], rfl⟩
  | false =>
    right
    cases hf : s.inFlight with
    | none =>
      refine .inr ⟨rfl, by simp [completesAt, hr, hf], .inr ?_⟩
      cases hv : i.cmdValid with
      | true =>
        rw [edge_accepting hr hf hv] at h
        cases h
        exact .inl ⟨rfl, rfl, rfl⟩
      | false =>
        rw [edge_idle hr hf hv] at h
        cases h
        exact .inr ⟨rfl, rfl, rfl⟩
    | some f =>
      obtain ⟨c, n⟩ := f
      cases n with
      | zero =>
        rw [edge_completing hr hf] at h
        exact .inl ⟨rfl, c, rfl, by simp [completesAt, hr, hf], h⟩
      | succ n =>
        rw [edge_waiting hr hf] at h
        cases h
        exact .inr ⟨rfl, by simp [completesAt, hr, hf], .inl ⟨c, n, rfl, rfl⟩⟩

/-- What a step can do: perform the command in flight, perform the next pair of the host, or nothing. -/
theorem step_inversion {s t : State} (h : step s = .next t) :
    (∃ f, s.inFlight = some f ∧ perform f.command { s with inFlight := none } = .next t) ∨
    (∃ c cs, s.inFlight = none ∧ s.program = c :: cs ∧ perform c { s with program := cs } = .next t) ∨
    (s.inFlight = none ∧ s.program = [] ∧ t = idle s) := by
  cases hf : s.inFlight with
  | some f =>
    rw [step_of_fetch (fetch_of_inFlight hf)] at h
    exact .inl ⟨f, rfl, h⟩
  | none =>
    cases hp : s.program with
    | nil =>
      simp only [step, fetch_of_nothing hf hp] at h
      cases h
      exact .inr (.inr ⟨rfl, rfl, rfl⟩)
    | cons c cs =>
      rw [step_of_fetch (fetch_of_program hf hp)] at h
      exact .inr (.inl ⟨c, cs, rfl, rfl, hf ▸ h⟩)

end Sys2Proof.Machine
end

