-- ==== Sys2Proof/Tests/Slice0.lean ====
section
/-!
SUPPORT. Tests. Expected values are those of spec/95_test_vectors.md and of the rules named; words are written out bit by
bit from spec/30_encoding.md rules R45 and R48.
-/
namespace Sys2Proof.Tests

open Sys2Proof.Machine Sys2Proof.Safety

/-- A state with the given CRC and STATUS, else as after reset. -/
def launch (crc status : Word) : State := { State.reset with crc := crc, status := status }

/-- CRC, STATUS and the response after a step that goes on. -/
def shown (o : Host.Outcome State Fault Refusal) : Option (Word × Word × Word) :=
  match o with
  | .next t => some (t.crc, t.status, t.rsp)
  | .fault _ => none
  | .refused _ => none

/-- The state after a step that goes on. -/
def next? (o : Host.Outcome State Fault Refusal) : Option State :=
  match o with
  | .next t => some t
  | .fault _ => none
  | .refused _ => none

/-! Well-formedness: one ill-formed command for each check, which the check refuses. -/

theorem test_reserved_bit_refused : Command.rsvClear { word := 0x00000108#32, arg := 0x31#32 } = false := by decide
theorem test_unassigned_opcode_refused : Command.opAssigned { word := 0x00000004#32, arg := 0#32 } = false := by decide
theorem test_reserved_bit_not_wellFormed : ¬ Command.WellFormed { word := 0x80000000#32, arg := 0#32 } := by decide
theorem test_unassigned_not_wellFormed : ¬ Command.WellFormed { word := 0x00000022#32, arg := 0#32 } := by decide
theorem test_legal_wellFormed : Command.WellFormed { word := 0x00000021#32, arg := 0xFFFFFFFF#32 } := by decide
theorem test_opcodes_distinct : assignedOpcodes.Nodup := by decide

/-! Decoding: every command's word, operand A in bits 63:32. -/

theorem test_decode_nop : decodeTableWord 32 0b00000000000000000000000000000000 = some (.nop 0#32) := by decide
theorem test_decode_init : decodeTableWord 32 0b00000000000000000000000000000001 = some (.init 0#32) := by decide
theorem test_decode_load :
    decodeTableWord 64 (0x619119D1 * 2 ^ 32 + 0b00000000000000000000000000000010) = some (.load 0x619119D1#32) := by decide
theorem test_decode_read : decodeTableWord 32 0b00000000000000000000000000000011 = some (.read 0#32) := by decide
theorem test_decode_upd1 :
    decodeTableWord 64 (0xAABBCC31 * 2 ^ 32 + 0b00000000000000000000000000001000) = some (.upd1 0xAABBCC31#32) := by decide
theorem test_decode_upd2 :
    decodeTableWord 64 (0xAABB3231 * 2 ^ 32 + 0b00000000000000000000000000001001) = some (.upd2 0xAABB3231#32) := by decide
theorem test_decode_upd3 :
    decodeTableWord 64 (0xAA333231 * 2 ^ 32 + 0b00000000000000000000000000001010) = some (.upd3 0xAA333231#32) := by decide
theorem test_decode_upd4 :
    decodeTableWord 64 (0x34333231 * 2 ^ 32 + 0b00000000000000000000000000001011) = some (.upd4 0x34333231#32) := by decide
theorem test_decode_check :
    decodeTableWord 64 (0x96BB864E * 2 ^ 32 + 0b00000000000000000000000000010000) = some (.check 0x96BB864E#32) := by decide
theorem test_decode_lutrd :
    decodeTableWord 64 (0xFFFFFF80 * 2 ^ 32 + 0b00000000000000000000000000011000) = some (.lutrd 0xFFFFFF80#32) := by decide
theorem test_decode_poly : decodeTableWord 32 0b00000000000000000000000000011001 = some (.poly 0#32) := by decide
theorem test_decode_stat : decodeTableWord 32 0b00000000000000000000000000100000 = some (.stat 0#32) := by decide
theorem test_decode_clrst : decodeTableWord 32 0b00000000000000000000000000100001 = some (.clrst 0#32) := by decide
theorem test_decode_rejects_reserved : decodeTableWord 32 0b00000000000000000000000100001011 = none := by decide
theorem test_decode_rejects_unassigned : decodeTableWord 32 0b00000000000000000000000000001100 = none := by decide

/-! 95_test_vectors.md section 2.4: the control family. -/

theorem test_nop : shown (exec (.nop 0xDEADBEEF#32) (launch 0x12345678#32 0x7#32)) =
    some (0x12345678#32, 0x7#32, 0x12345678#32) := by decide
theorem test_init_keeps_mism : shown (exec (.init 0xDEADBEEF#32) (launch 0x12345678#32 0x7#32)) =
    some (0x00000000#32, 0x4#32, 0x00000000#32) := by decide
theorem test_load_keeps_sticky : shown (exec (.load 0xFFFFFFFF#32) (launch 0x12345678#32 0xF#32)) =
    some (0xFFFFFFFF#32, 0xC#32, 0xFFFFFFFF#32) := by decide
theorem test_load_same_value_clears_match : shown (exec (.load 0x12345678#32) (launch 0x12345678#32 0x3#32)) =
    some (0x12345678#32, 0x0#32, 0x12345678#32) := by decide
theorem test_read : shown (exec (.read 0xDEADBEEF#32) (launch 0x12345678#32 0x7#32)) =
    some (0x12345678#32, 0x7#32, 0x12345678#32) := by decide

/-! Section 2.5: the update family. -/

theorem test_upd1_absorbs : shown (exec (.upd1 0x0000009A#32) (launch 0x12345678#32 0x3#32)) =
    some (0x7B527556#32, 0x0#32, 0x7B527556#32) := by decide
theorem test_upd1_keeps_sticky : shown (exec (.upd1 0x00000001#32) (launch 0x00000000#32 0xC#32)) =
    some (0x04C11DB7#32, 0xC#32, 0x04C11DB7#32) := by decide
theorem test_upd2_ignores_lanes : shown (exec (.upd2 0xAABB3231#32) (launch 0x00000000#32 0x0#32)) =
    some (0x3F5B3A17#32, 0x0#32, 0x3F5B3A17#32) := by decide
theorem test_upd2_lane_order : shown (exec (.upd2 0x0000FF00#32) (launch 0x00000000#32 0x0#32)) =
    some (0xB1F740B4#32, 0x0#32, 0xB1F740B4#32) := by decide
theorem test_upd3 : shown (exec (.upd3 0xAA333231#32) (launch 0x00000000#32 0x0#32)) =
    some (0x6E368C64#32, 0x0#32, 0x6E368C64#32) := by decide
theorem test_upd4_ogg : shown (exec (.upd4 0x5367674F#32) (launch 0x00000000#32 0x0#32)) =
    some (0x5FB0A94F#32, 0x0#32, 0x5FB0A94F#32) := by decide
theorem test_upd4_zero_from_nonzero : shown (exec (.upd4 0x00000000#32) (launch 0x12345678#32 0x3#32)) =
    some (0x188E5750#32, 0x0#32, 0x188E5750#32) := by decide

/-! Section 2.6: CHECK. -/

theorem test_check_mismatch : shown (exec (.check 0x4E86BB96#32) (launch 0x96BB864E#32 0x0#32)) =
    some (0x96BB864E#32, 0x5#32, 0xD83D3DD8#32) := by decide
theorem test_check_match_keeps_mism : shown (exec (.check 0x96BB864E#32) (launch 0x96BB864E#32 0x4#32)) =
    some (0x96BB864E#32, 0x7#32, 0x00000000#32) := by decide

/-! Section 2.7: table, identity and status. -/

theorem test_lutrd_low_byte : shown (exec (.lutrd 0xFFFFFF80#32) (launch 0x00000001#32 0x0#32)) =
    some (0x00000001#32, 0x0#32, 0x690CE0EE#32) := by decide
theorem test_lutrd_index_wraps : shown (exec (.lutrd 0x00000100#32) (launch 0x00000001#32 0x0#32)) =
    some (0x00000001#32, 0x0#32, 0x00000000#32) := by decide
theorem test_poly : shown (exec (.poly 0x00000000#32) (launch 0x00000001#32 0xF#32)) =
    some (0x00000001#32, 0xF#32, 0x04C11DB7#32) := by decide
theorem test_stat : shown (exec (.stat 0xFFFFFFFF#32) (launch 0x00000001#32 0xF#32)) =
    some (0x00000001#32, 0xF#32, 0x0000000F#32) := by decide
/-- 10_state.md rule R13: bits 31:4 read as zero in every state. -/
theorem test_stat_reserved_read_zero : shown (exec (.stat 0#32) (launch 0x00000001#32 0xFFFFFFF2#32)) =
    some (0x00000001#32, 0xFFFFFFF2#32, 0x00000002#32) := by decide
theorem test_clrst : shown (exec (.clrst 0x00000000#32) (launch 0x00000001#32 0xF#32)) =
    some (0x00000001#32, 0x0#32, 0x0000000F#32) := by decide

/-! Section 2.8: illegal commands. -/

theorem test_illegal_reserved : shown (perform { word := 0x0000010B#32, arg := 0xDEADBEEF#32 } (launch 0x12345678#32 0x3#32)) =
    some (0x12345678#32, 0xB#32, 0x00000000#32) := by decide
theorem test_illegal_unassigned : shown (perform { word := 0x00000011#32, arg := 0xDEADBEEF#32 } (launch 0x12345678#32 0x3#32)) =
    some (0x12345678#32, 0xB#32, 0x00000000#32) := by decide

/-! Sections 2.1 to 2.3: the table, and absorbing from a non-zero state (the corner where the index is 0). -/

theorem test_lut_corners : lut 0x55#8 ^^^ lut 0xAA#8 = lut 0xFF#8 ∧ lut 0xAA#8 = 0xDEA580D8#32 := by decide
theorem test_absorb_plain_shift : absorb 0xDEADBEEF#32 0xDE#8 = 0xADBEEF00#32 := by decide
theorem test_abc : absorbAll 0#32 [0x61#8, 0x62#8, 0x63#8] = 0x2C17398C#32 := by decide

/-! 70_reset_and_hazards.md and 30_encoding.md rule R44: the pins. -/

/-- An edge at which the host offers a command. -/
def offer (word arg : Word) : PinsIn := { rst := false, cmdValid := true, cmd := word, arg := arg }
/-- An edge at which the host offers nothing. -/
def quiet : PinsIn := { rst := false, cmdValid := false, cmd := 0#32, arg := 0#32 }
/-- An edge with rst = 1. -/
def resetting : PinsIn := { rst := true, cmdValid := true, cmd := 0x8#32, arg := 0x1#32 }

/-- LOAD with CMD_LATENCY = 2: nothing shows at the first edge after acceptance, the response at the second. -/
theorem test_latency_two :
    (next? (runEdges [(1, offer 0x2#32 0x5#32), (0, quiet)] State.reset)).map (fun t => (t.crc, outputs false t)) =
      some (0x0#32, { cmdReady := false, rspValid := false, rsp := 0x0#32 }) ∧
    (next? (runEdges [(1, offer 0x2#32 0x5#32), (0, quiet), (0, quiet)] State.reset)).map (fun t => (t.crc, outputs false t)) =
      some (0x5#32, { cmdReady := true, rspValid := true, rsp := 0x5#32 }) := by decide
/-- rsp_valid lasts one cycle and RSP holds. -/
theorem test_response_holds :
    (next? (runEdges [(0, offer 0x2#32 0x5#32), (0, quiet), (0, quiet)] State.reset)).map (outputs false) =
      some { cmdReady := true, rspValid := false, rsp := 0x5#32 } := by decide
/-- Reset overrides the command in flight. -/
theorem test_reset_abandons :
    next? (runEdges [(0, offer 0x2#32 0x5#32), (0, resetting)] State.reset) = some State.reset := by decide

/-! 30_encoding.md rules R52 and R53: lines of the programs P1, P3 and P4. -/

theorem test_line_command : readLine ['u', 'p', 'd', '1', ' ', '0', 'x', '3', '1', ' ', ';', 'x'] =
    some [.command (.upd1 0x31#32)] := by decide
theorem test_line_decimal_and_omitted : readProgram ['L', 'O', 'A', 'D', ' ', '2', '5', '8', '\n', 'S', 'T', 'A', 'T'] =
    some [.command (.load 258#32), .command (.stat 0#32)] := by decide
theorem test_line_word : readLine ['.', 'w', 'o', 'r', 'd', ' ', '0', 'x', '1', '0', '8', ',', ' ', '4', '9'] =
    some [.raw { word := 0x108#32, arg := 0x31#32 }] := by decide
theorem test_line_upds : readLine ['U', 'P', 'D', 'S', ' ', '"', 'a', 'b', ';', '"'] =
    some [.upds ['a', 'b', ';']] := by decide
theorem test_line_too_wide : readLine ['U', 'P', 'D', 'B', ' ', '2', '5', '6'] = none := by decide
theorem test_updb_expands : assemble [.updb [0x35#8, 0x36#8, 0x37#8, 0x38#8, 0x39#8]] =
    [{ word := 0xB#32, arg := 0x38373635#32 }, { word := 0x8#32, arg := 0x39#32 }] := by decide
theorem test_checkb_expands : assemble [.checkb 0x4E#8 0x86#8 0xBB#8 0x96#8] =
    [{ word := 0x10#32, arg := 0x96BB864E#32 }] := by decide

/-! The fetch of an opcode-table word. -/

theorem test_fetch_word : shown (step (State.reset.withFetchWord 32 0x19)) = some (0#32, 0#32, 0x04C11DB7#32) := by decide

theorem test_fetch_word_operand :
    shown (step (State.reset.withFetchWord 64 (0x619119D1 * 2 ^ 32 + 0x2))) = some (0x619119D1#32, 0#32, 0x619119D1#32) := by decide

/-! Witnesses: for each statement with hypotheses, a state and operands that meet all of them together. -/

/-- A state with a command in flight that completes at the next edge. -/
def busy : State := { launch 0x5#32 0x4#32 with inFlight := some { command := { word := 0x0#32, arg := 0#32 }, wait := 0 } }
/-- A state whose host has a legal pair to issue next. -/
def issuing : State := { launch 0x5#32 0x0#32 with program := [{ word := 0x21#32, arg := 0#32 }] }

theorem witness_EncodingTable : decode { word := 0x21#32, arg := 0x7#32 } = .ok (.clrst 0x7#32) := rfl
theorem witness_UpdateOpcodeSubfield :
    decode { word := 0xB#32, arg := 0x7#32 } = .ok (.upd4 0x7#32) ∧ messageBytes (.upd4 0x7#32) ≠ [] ∧
    (0xB#32).extractLsb' 2 6 = 0b000010#6 ∧ (0x8#32).extractLsb' 2 6 = 0b000010#6 ∧
    messageBytes (.check 0x7#32) = [] ∧ (0x10#32).extractLsb' 2 6 ≠ 0b000010#6 := by
  exact ⟨rfl, by decide, by decide, by decide, by decide, by decide⟩
theorem witness_IllegalCommandOnlySetsIll :
    (0x4#32) ∉ legalWords ∧ (0x22#32) ∉ legalWords ∧ (0x80000000#32).extractLsb' 8 24 ≠ 0#24 ∧
    (0x00000100#32).extractLsb' 8 24 ≠ 0#24 := by decide
theorem witness_StepRunsDecodedCommand_illegal :
    let s : State := { launch 0x5#32 0x3#32 with program := [{ word := 0xFFFFFFFF#32, arg := 0#32 }] }
    s.inFlight = none ∧ s.program = { word := 0xFFFFFFFF#32, arg := 0#32 } :: [] ∧
    decode { word := 0xFFFFFFFF#32, arg := 0#32 } = .error .reservedBitsSet := ⟨rfl, rfl, rfl⟩
theorem witness_StepRunsDecodedCommand :
    (issuing.inFlight = none ∧ issuing.program = { word := 0x21#32, arg := 0#32 } :: [] ∧
      decode { word := 0x21#32, arg := 0#32 } = .ok (.clrst 0#32)) ∧
    busy.inFlight = some { command := { word := 0x0#32, arg := 0#32 }, wait := 0 } ∧
      decode { word := 0x0#32, arg := 0#32 } = .ok (.nop 0#32) := ⟨⟨rfl, rfl, rfl⟩, rfl, rfl⟩
theorem witness_StepRunsDecodedCommand_illegal_inFlight :
    let f : InFlight := { command := { word := 0x4#32, arg := 0#32 }, wait := 3 }
    let s : State := { launch 0x5#32 0x3#32 with inFlight := some f }
    s.inFlight = some f ∧ decode f.command = .error .unassignedOpcode := ⟨rfl, rfl⟩
theorem witness_StepWithoutCommandIsIdle : State.reset.inFlight = none ∧ State.reset.program = [] := by decide
theorem witness_StepsRunIssuedProgram : issuing.inFlight = none ∧ issuing.program ≠ [] := by decide
theorem witness_InitStartsFromZero : ∃ t u, exec (.init 0x1#32) (launch 0x5#32 0x7#32) = .next t ∧
    exec (.init 0x2#32) t = .next u := ⟨_, _, rfl, rfl⟩
theorem witness_ReadRespondsCrc : ∃ t u, exec (.read 0x1#32) (launch 0x5#32 0x7#32) = .next t ∧
    exec (.read 0x2#32) t = .next u := ⟨_, _, rfl, rfl⟩
theorem witness_CheckComparesCrc_match : ∃ t u, exec (.check 0x5#32) (launch 0x5#32 0x4#32) = .next t ∧
    exec (.check 0x5#32) t = .next u := ⟨_, _, rfl, rfl⟩
theorem witness_CheckComparesCrc_mismatch : ∃ t u, exec (.check 0x4#32) (launch 0x5#32 0x3#32) = .next t ∧
    exec (.check 0x4#32) t = .next u := ⟨_, _, rfl, rfl⟩
theorem witness_StatRespondsStatus : ∃ t u, exec (.stat 0x1#32) (launch 0x5#32 0xF#32) = .next t ∧
    exec (.stat 0x2#32) t = .next u := ⟨_, _, rfl, rfl⟩
theorem witness_ClrstReadsAndClears : ∃ t u, exec (.clrst 0x1#32) (launch 0x5#32 0xF#32) = .next t ∧
    exec (.clrst 0x2#32) t = .next u := ⟨_, _, rfl, rfl⟩
theorem witness_ClrstReadsAndClears_other :
    (∃ t, perform { word := 0x1#32, arg := 0x5#32 } (launch 0x5#32 0xF#32) = .next t) ∧ (0x1#32) ≠ clrstWord ∧
    mism (launch 0x5#32 0xF#32).status = true ∧ ill (launch 0x5#32 0xF#32).status = true :=
  ⟨⟨_, rfl⟩, by decide, by decide, by decide⟩
theorem witness_StatusFieldsSetAndCleared_check :
    ∃ t, perform { word := 0x10#32, arg := 0x5#32 } (launch 0x5#32 0x0#32) = .next t ∧ chk t.status = true := ⟨_, rfl, rfl⟩
theorem witness_StatusFieldsSetAndCleared_writer :
    ∃ t, perform { word := 0x2#32, arg := 0x5#32 } (launch 0x5#32 0x3#32) = .next t := ⟨_, rfl⟩
theorem witness_StatusFieldsSetAndCleared_clrst :
    ∃ t, perform { word := 0x21#32, arg := 0x5#32 } (launch 0x5#32 0xF#32) = .next t := ⟨_, rfl⟩
theorem witness_StatusFieldsSetAndCleared_illegal :
    ∃ t, perform { word := 0x100#32, arg := 0x5#32 } (launch 0x5#32 0x0#32) = .next t := ⟨_, rfl⟩
theorem witness_StatusFieldsSetAndCleared_other :
    (∃ t, perform { word := 0x20#32, arg := 0x5#32 } (launch 0x5#32 0xF#32) = .next t) ∧ resetting.rst = true := ⟨⟨_, rfl⟩, rfl⟩
theorem witness_OnlyWritersChangeCrc :
    (∃ t, perform { word := 0xB#32, arg := 0x5#32 } (launch 0x5#32 0x0#32) = .next t ∧ (0xB#32) ∈ crcWriterWords) ∧
    ∃ t, perform { word := 0x10#32, arg := 0x5#32 } (launch 0x5#32 0x0#32) = .next t ∧ (0x10#32) ∉ crcWriterWords :=
  ⟨⟨_, rfl, by decide⟩, _, rfl, by decide⟩
theorem witness_StatusFieldsSetAndCleared_reserved :
    (∃ t, perform { word := 0x4#32, arg := 0x4#32 } (launch 0x5#32 0x80000000#32) = .next t) ∧ 4 ≤ 4 ∧
    (launch 0x5#32 0x80000000#32).status.getLsbD 4 = false := ⟨⟨_, rfl⟩, by decide, by decide⟩
theorem witness_CommandsKeepStatusRelations :
    MatchImpliesChk (launch 0x5#32 0x7#32) ∧ MismatchRecorded (launch 0x5#32 0x7#32) ∧
    (0x10#32) ≠ clrstWord ∧
    ∃ t, perform { word := 0x10#32, arg := 0x4#32 } (launch 0x5#32 0x7#32) = .next t :=
  ⟨by decide, by decide, by decide, _, rfl⟩
theorem witness_AtMostOneEventPerCommand :
    (ill (launch 0x5#32 0x0#32).status = false ∧
      ∃ t, perform { word := 0x4#32, arg := 0x4#32 } (launch 0x5#32 0x0#32) = .next t ∧ ill t.status = true) ∧
    (mism (launch 0x5#32 0x0#32).status = false ∧
      ∃ t, perform { word := 0x10#32, arg := 0x4#32 } (launch 0x5#32 0x0#32) = .next t ∧ mism t.status = true) ∧
    resetting.rst = true := ⟨⟨rfl, _, rfl, rfl⟩, ⟨rfl, _, rfl, rfl⟩, rfl⟩
theorem witness_TwoEventsAndTheirCauses :
    ill (launch 0x5#32 0x0#32).status = false ∧ mism (launch 0x5#32 0x0#32).status = false ∧
    (∃ t, perform { word := 0x10#32, arg := 0x4#32 } (launch 0x5#32 0x0#32) = .next t) ∧
    ∃ t, perform { word := 0x4#32, arg := 0x4#32 } (launch 0x5#32 0x0#32) = .next t := ⟨rfl, rfl, ⟨_, rfl⟩, _, rfl⟩
theorem witness_MismatchIsSticky :
    (launch 0x5#32 0x0#32).crc ≠ 0x4#32 ∧ resetting.rst = true ∧
    ∃ t, edge 0 resetting (launch 0x5#32 0x4#32) = .next t ∧ mism (launch 0x5#32 0x4#32).status = true ∧
      mism t.status = false := ⟨by decide, rfl, _, rfl, rfl, rfl⟩
theorem witness_IdempotentCommands :
    (.lutrd 0x1#32 : Instr) ∈ [.nop 0x1#32, .read 0x1#32, .stat 0x1#32, .lutrd 0x1#32, .poly 0x1#32] ∧
    (.load 0x1#32 : Instr) ∈ [.init 0x1#32, .load 0x1#32] ∧
    (.upd4 0x1#32 : Instr) ∈ [.upd1 0x1#32, .upd2 0x1#32, .upd3 0x1#32, .upd4 0x1#32] := by decide
theorem witness_ResponsesInIssueOrder :
    let s := launch 0x5#32 0x3#32
    let t := { launch 0x5#32 0x3#32 with rsp := 0x9#32 }
    s ≠ t ∧ s.crc = t.crc ∧ s.status = t.status ∧ (∃ s', perform { word := 0xB#32, arg := 0x4#32 } s = .next s') ∧
      ∃ t', perform { word := 0xB#32, arg := 0x4#32 } t = .next t' := ⟨by decide, rfl, rfl, ⟨_, rfl⟩, _, rfl⟩
theorem witness_UnusedOperandBitsIgnored :
    (decode { word := 0x8#32, arg := 0xAABBCC31#32 } = .ok (.upd1 0xAABBCC31#32) ∧
      0x00000031#32 &&& operandMask (.upd1 0xAABBCC31#32) = 0xAABBCC31#32 &&& operandMask (.upd1 0xAABBCC31#32)) ∧
    decode { word := 0x4#32, arg := 0x1#32 } = .error .unassignedOpcode := ⟨⟨rfl, by decide⟩, rfl⟩
theorem witness_LanesInStreamOrder :
    (0x34333231#32) = (0x31#8).setWidth 32 ||| ((0x32#8).setWidth 32 <<< 8) ||| ((0x33#8).setWidth 32 <<< 16) |||
      ((0x34#8).setWidth 32 <<< 24) := by decide
theorem witness_CrcIsLinear : [0x1#8, 0x2#8].length = [0xFF#8, 0x0#8].length := by decide
/-- A burst of 32 bits, the longest the statement takes. -/
theorem witness_BurstErrorsChangeCrc :
    let b1 := messageBits [0x00#8, 0x00#8, 0x00#8, 0x00#8]
    let b2 := messageBits [0x80#8, 0x00#8, 0x00#8, 0x01#8]
    messageBits [0x61#8, 0x00#8, 0x00#8, 0x00#8, 0x00#8, 0x62#8] = messageBits [0x61#8] ++ b1 ++ messageBits [0x62#8] ∧
    messageBits [0x61#8, 0x80#8, 0x00#8, 0x00#8, 0x01#8, 0x62#8] = messageBits [0x61#8] ++ b2 ++ messageBits [0x62#8] ∧
    b1.length = b2.length ∧ b1.length ≤ 32 ∧ b1 ≠ b2 := by decide
theorem witness_SplitIsInvisible :
    let xs := [Instr.upd4 0x34333231#32]
    let ys := [Instr.upd2 0x3231#32, Instr.upd1 0x33#32, Instr.upd1 0x34#32]
    (∀ i ∈ xs, messageBytes i ≠ []) ∧ (∀ i ∈ ys, messageBytes i ≠ []) ∧
    xs.flatMap messageBytes = ys.flatMap messageBytes := by decide
/-- A page with the given segments and body. -/
def page (segments body : List Byte) : Page :=
  { flags := 0x2#8
    granule := 0#64
    serial := 0x01020304#32
    sequenceNumber := 0#32
    storedCrc := 0x96BB864E#32
    segments := segments
    body := body }

/-- A page with one segment, and one of the greatest number of segments. -/
theorem witness_PageLayoutAndStoredCrc :
    PageFits (page [0x2#8] [0x4E#8, 0x56#8]) ∧ PageFits (page (List.replicate 255 0x0#8) []) := by
  refine ⟨by decide, Nat.le_of_eq List.length_replicate, ?_⟩
  show 0 = ((List.replicate 255 0x0#8).map BitVec.toNat).sum
  rw [List.map_replicate, List.sum_replicate]
  rfl
/-- Five bytes: one full group of four and one byte more. -/
theorem witness_PseudoInstructionsExpand :
    0 < [0x35#8, 0x36#8, 0x37#8, 0x38#8, 0x39#8].length / 4 ∧
    Instr.upd1 0x39#32 ∈ updb [0x35#8, 0x36#8, 0x37#8, 0x38#8, 0x39#8] := by decide
theorem witness_PageCheckDecidesAcceptance : ¬ PageAccepted [0x31#8] := by decide
/-- 26 zero bytes and the last place below the stored CRC. -/
theorem witness_ChangedByteIsRejected_below :
    let bytes := List.replicate 26 0x00#8
    26 ≤ bytes.length ∧ 21 < bytes.length ∧ (21 < 22 ∨ 26 ≤ 21) ∧ bytes[21]? ≠ some 0x01#8 ∧ PageAccepted bytes := by
  refine ⟨by decide, by decide, by decide, by decide, ?_⟩
  have zero : ∀ k : Nat, absorbAll 0#32 (List.replicate k 0#8) = 0#32 := by
    intro k
    induction k with
    | zero => rfl
    | succ k ih => exact ih
  exact zero 26
/-- 27 zero bytes: the checksum and the stored CRC are both 0. -/
theorem witness_ChangedByteIsRejected :
    let bytes := List.replicate 27 0x00#8
    26 ≤ bytes.length ∧ 26 < bytes.length ∧ (26 < 22 ∨ 26 ≤ 26) ∧ bytes[26]? ≠ some 0x01#8 ∧ PageAccepted bytes := by
  refine ⟨by decide, by decide, by decide, by decide, ?_⟩
  have zero : ∀ k : Nat, absorbAll 0#32 (List.replicate k 0#8) = 0#32 := by
    intro k
    induction k with
    | zero => rfl
    | succ k ih => exact ih
  exact zero 27
theorem witness_ResetLeavesZeros : resetting.rst = true := by decide
theorem witness_ResetAbandonsCommandInFlight :
    resetting.rst = true ∧ busy.inFlight = some { command := { word := 0x0#32, arg := 0#32 }, wait := 0 } ∧
    ∃ t, perform { word := 0x0#32, arg := 0#32 } { busy with inFlight := none } = .next t := ⟨rfl, rfl, _, rfl⟩
theorem witness_ReadyAfterReset :
    resetting.rst = true ∧ (offer 0x8#32 0x1#32).rst = false ∧ (offer 0x8#32 0x1#32).cmdValid = true ∧
    ∃ t, edge 0 resetting busy = .next t := ⟨rfl, rfl, rfl, _, rfl⟩
theorem witness_AcceptedCommandCompletes :
    State.reset.inFlight = none ∧ accepts (offer 0x8#32 0x1#32) State.reset = true ∧
    (∀ e ∈ [(0, quiet), (3, offer 0x2#32 0x7#32)], e.2.rst = false) ∧
    [(0, quiet), (3, offer 0x2#32 0x7#32)].length = 1 + 1 ∧ [(0, quiet)].length ≤ 1 := by decide
theorem witness_PinsSampledOnlyAtAcceptance :
    accepts (offer 0x8#32 0x1#32) State.reset = true ∧
    (offer 0x8#32 0x1#32).rst = quiet.rst ∧ accepts (offer 0x8#32 0x1#32) busy = false ∧ accepts quiet busy = false := by decide
theorem witness_ResponseRegisterHolds :
    (∃ t, edge 0 resetting busy = .next t) ∧ (∃ t, edge 0 quiet busy = .next t) ∧
    completesAt quiet busy = [{ word := 0x0#32, arg := 0#32 }] ∧
    (∃ t, edge 0 quiet State.reset = .next t) ∧ quiet.rst = false ∧ completesAt quiet State.reset = [] :=
  ⟨⟨_, rfl⟩, ⟨_, rfl⟩, rfl, ⟨_, rfl⟩, rfl, rfl⟩
theorem witness_EdgeChangesOnlyAtCompletion :
    (∃ t, edge 0 (offer 0x8#32 0x1#32) State.reset = .next t) ∧ (offer 0x8#32 0x1#32).rst = false ∧
    completesAt (offer 0x8#32 0x1#32) State.reset = [] := ⟨⟨_, rfl⟩, rfl, rfl⟩
theorem witness_PinsRefineCommands : ∀ e ∈ [(1, offer 0x8#32 0x1#32), (0, quiet), (0, quiet)], e.2.rst = false := by decide
theorem witness_TicksRefineStep :
    issuing.inFlight = none ∧ issuing.program = { word := 0x21#32, arg := 0#32 } :: [] ∧ [5, 5, 5].length = 2 + 1 := by decide
theorem witness_TicksRefineStep_inFlight :
    let s : State := { issuing with inFlight := some { command := { word := 0x8#32, arg := 0x1#32 }, wait := 2 } }
    s.inFlight = some { command := { word := 0x8#32, arg := 0x1#32 }, wait := 2 } ∧ [5, 5, 5].length = 2 + 1 := by decide
theorem witness_StepKeepsInvariant : Inv issuing ∧ ∃ t, step issuing = .next t := ⟨by decide, _, rfl⟩
theorem witness_EdgeKeepsInvariant :
    Inv busy ∧ (∃ t, edge 0 quiet busy = .next t) ∧ resetting.rst = true ∧ ∃ t, edge 0 resetting busy = .next t :=
  ⟨by decide, ⟨_, rfl⟩, rfl, _, rfl⟩

end Sys2Proof.Tests
end

section
/-!
PROOFS. STATUS and RSP (spec/10_state.md rules R12, R13 and R17): which commands set and clear each field of STATUS, and
when RSP changes.
-/
namespace Sys2Proof.Proofs

open Sys2Proof Sys2Proof.Machine Sys2Proof.Safety

/-! ## The words of the commands that decode -/

theorem eq_encode_of_decode_ok {c : Command} {i : Instr} (h : decode c = .ok i) : c = encode i := by
  unfold decode at h
  split at h
  next hrsv =>
    split at h
    next j hop =>
      cases h
      obtain ⟨hopcode, hoperand⟩ := decodeOpcode_eq_some hop
      rw [encode, hopcode, hoperand, word_of_fields hrsv]
    next => cases h
  next => cases h

theorem decode_ok_of_mem_legalWords (a : Word) :
    ∀ w ∈ legalWords, ∃ i, decode { word := w, arg := a } = .ok i := by
  simp only [legalWords, List.forall_mem_cons]
  exact ⟨⟨_, (Laws.RoundTrip.nop a).2⟩, ⟨_, (Laws.RoundTrip.init a).2⟩, ⟨_, (Laws.RoundTrip.load a).2⟩,
    ⟨_, (Laws.RoundTrip.read a).2⟩, ⟨_, (Laws.RoundTrip.upd1 a).2⟩, ⟨_, (Laws.RoundTrip.upd2 a).2⟩,
    ⟨_, (Laws.RoundTrip.upd3 a).2⟩, ⟨_, (Laws.RoundTrip.upd4 a).2⟩, ⟨_, (Laws.RoundTrip.check a).2⟩,
    ⟨_, (Laws.RoundTrip.lutrd a).2⟩, ⟨_, (Laws.RoundTrip.poly a).2⟩, ⟨_, (Laws.RoundTrip.stat a).2⟩,
    ⟨_, (Laws.RoundTrip.clrst a).2⟩, nofun⟩

theorem not_mem_legalWords_of_decode_error {c : Command} {e : DecodeError} (h : decode c = .error e) :
    c.word ∉ legalWords := by
  intro hw
  obtain ⟨i, hi⟩ := decode_ok_of_mem_legalWords c.arg c.word hw
  cases h.symm.trans hi

/-! ## What a command does to STATUS -/

/-- The words of the legal commands that keep STATUS: NOP, READ, LUTRD, POLY and STAT (10_state.md rule R12). -/
def statusKeeperWords : List Word :=
  [0x00000000#32, 0x00000003#32, 0x00000018#32, 0x00000019#32, 0x00000020#32]

/-- The STATUS a command leaves, by the class of its word (10_state.md rule R12, 60_exceptions.md rule R102). -/
inductive StatusEffect (c : Command) (s : State) : Word → Prop where
  | check (word : c.word = checkWord) : StatusEffect c s (checkStatus s.crc c.arg s.status)
  | crcWriter (word : c.word ∈ crcWriterWords) : StatusEffect c s (clearCheck s.status)
  | clrst (word : c.word = clrstWord) : StatusEffect c s clearedStatus
  | keeper (word : c.word ∈ statusKeeperWords) : StatusEffect c s s.status
  | illegal (word : c.word ∉ legalWords) : StatusEffect c s (signalIllegal s.status)

theorem exec_statusEffect {i : Instr} {s t : State} (h : exec i s = .next t) : StatusEffect (encode i) s t.status := by
  cases i <;> cases h
  case nop => exact .keeper (of_decide_eq_true rfl)
  case init => exact .crcWriter (of_decide_eq_true rfl)
  case load => exact .crcWriter (of_decide_eq_true rfl)
  case read => exact .keeper (of_decide_eq_true rfl)
  case upd1 => exact .crcWriter (of_decide_eq_true rfl)
  case upd2 => exact .crcWriter (of_decide_eq_true rfl)
  case upd3 => exact .crcWriter (of_decide_eq_true rfl)
  case upd4 => exact .crcWriter (of_decide_eq_true rfl)
  case check => exact .check rfl
  case lutrd => exact .keeper (of_decide_eq_true rfl)
  case poly => exact .keeper (of_decide_eq_true rfl)
  case stat => exact .keeper (of_decide_eq_true rfl)
  case clrst => exact .clrst rfl

theorem perform_statusEffect {c : Command} {s t : State} (h : perform c s = .next t) : StatusEffect c s t.status := by
  cases hd : decode c with
  | ok i =>
    rw [perform_of_decode_ok s hd] at h
    exact eq_encode_of_decode_ok hd ▸ exec_statusEffect h
  | error e =>
    rw [perform_of_decode_error s hd] at h
    cases h
    exact .illegal (not_mem_legalWords_of_decode_error hd)

/-! The classes of words exclude each other. -/

theorem checkWord_class : checkWord ≠ clrstWord ∧ checkWord ∉ crcWriterWords ∧ checkWord ∈ legalWords := by decide

theorem clrstWord_class : clrstWord ≠ checkWord ∧ clrstWord ∉ crcWriterWords ∧ clrstWord ∈ legalWords := by decide

theorem crcWriterWords_class : ∀ w ∈ crcWriterWords, w ≠ checkWord ∧ w ≠ clrstWord ∧ w ∈ legalWords := by
  simp [crcWriterWords, checkWord, clrstWord, legalWords]

theorem statusKeeperWords_class :
    ∀ w ∈ statusKeeperWords, w ≠ checkWord ∧ w ≠ clrstWord ∧ w ∉ crcWriterWords ∧ w ∈ legalWords := by
  simp [statusKeeperWords, checkWord, clrstWord, crcWriterWords, legalWords]

theorem illegalWord_class {w : Word} (h : w ∉ legalWords) :
    w ≠ checkWord ∧ w ≠ clrstWord ∧ w ∉ crcWriterWords := by
  obtain ⟨-, -, hcheck⟩ := checkWord_class
  obtain ⟨-, -, hclrst⟩ := clrstWord_class
  refine ⟨(ne_of_mem_of_not_mem hcheck h).symm, (ne_of_mem_of_not_mem hclrst h).symm, fun hw => ?_⟩
  obtain ⟨-, -, hlegal⟩ := crcWriterWords_class w hw
  exact h hlegal

/-- The table of R12: what sets each field, what clears it, and that it is else kept. -/
theorem StatusEffect.fields {c : Command} {s : State} {v : Word} (h : StatusEffect c s v) :
    chk v = (if c.word = checkWord then true
      else if c.word ∈ crcWriterWords ∨ c.word = clrstWord then false else chk s.status) ∧
    matched v = (if c.word = checkWord then decide (s.crc = c.arg)
      else if c.word ∈ crcWriterWords ∨ c.word = clrstWord then false else matched s.status) ∧
    mism v = (if c.word = checkWord then (mism s.status || decide (s.crc ≠ c.arg))
      else if c.word = clrstWord then false else mism s.status) ∧
    ill v = (if c.word = clrstWord then false
      else if c.word ∈ legalWords then ill s.status else true) := by
  cases h with
  | check word => simp [word, checkWord_class]
  | crcWriter word => simp [word, crcWriterWords_class c.word word]
  | clrst word => simp [word, clrstWord_class]
  | keeper word => simp [statusKeeperWords_class c.word word]
  | illegal word => simp [word, illegalWord_class word]

/-! ## The reserved bits of STATUS -/

theorem getLsbD_eq_of_reserved_eq {v st : Word} (h : v &&& 0xFFFFFFF0#32 = st &&& 0xFFFFFFF0#32) {k : Nat} (hk : 4 ≤ k) :
    v.getLsbD k = st.getLsbD k := by
  by_cases h32 : k < 32
  · have hbit := congrArg (BitVec.getLsbD · k) h
    interval_cases k <;> simpa using hbit
  · rw [BitVec.getLsbD_of_ge v k (by omega), BitVec.getLsbD_of_ge st k (by omega)]

/-- CLRST writes the reserved bits with zero, and every other command keeps them. -/
theorem StatusEffect.reserved {c : Command} {s : State} {v : Word} (h : StatusEffect c s v) :
    v = 0x00000000#32 ∨ v &&& 0xFFFFFFF0#32 = s.status &&& 0xFFFFFFF0#32 := by
  cases h with
  | check => exact .inr (reserved_checkStatus _ _ _)
  | crcWriter => exact .inr (reserved_clearCheck _)
  | clrst => exact .inl rfl
  | keeper => exact .inr rfl
  | illegal => exact .inr (reserved_signalIllegal _)

theorem StatusEffect.getLsbD_reserved {c : Command} {s : State} {v : Word} (h : StatusEffect c s v) {k : Nat} (hk : 4 ≤ k)
    (hs : s.status.getLsbD k = false) : v.getLsbD k = false := by
  obtain rfl | hkept := h.reserved
  · exact BitVec.getLsbD_zero
  · rw [getLsbD_eq_of_reserved_eq hkept hk, hs]

theorem StatusEffect.eq_zero_of_clrst {c : Command} {s : State} {v : Word} (h : StatusEffect c s v)
    (hw : c.word = clrstWord) : v = 0x00000000#32 := by
  cases h with
  | clrst => rfl
  | check word =>
    obtain ⟨hne, -, -⟩ := checkWord_class
    exact absurd (word.symm.trans hw) hne
  | crcWriter word =>
    obtain ⟨-, hne, -⟩ := crcWriterWords_class c.word word
    exact absurd hw hne
  | keeper word =>
    obtain ⟨-, hne, -, -⟩ := statusKeeperWords_class c.word word
    exact absurd hw hne
  | illegal word =>
    obtain ⟨-, hne, -⟩ := illegalWord_class word
    exact absurd hw hne

theorem readStatus_reserved (s : State) : readStatus s &&& 0xFFFFFFF0#32 = 0x00000000#32 := by
  have hmask : statusMask &&& 0xFFFFFFF0#32 = 0x00000000#32 := by decide
  rw [readStatus, statusRead, BitVec.and_assoc, hmask, BitVec.and_zero]

/-- Settles O24, by the class of the command's word. -/
theorem statusFieldsSetAndCleared : Obligations.StatusFieldsSetAndCleared := by
  refine ⟨fun c s t h => ?_, fun w i s hr => ⟨_, edge_of_rst s hr, rfl⟩, readStatus_reserved⟩
  have heffect := perform_statusEffect h
  obtain ⟨hchk, hmatched, hmism, hill⟩ := heffect.fields
  exact ⟨hchk, hmatched, hmism, hill, fun k hk => heffect.getLsbD_reserved hk, heffect.eq_zero_of_clrst⟩

/-! ## RSP -/

/-- No command reads RSP. -/
theorem perform_ignores_rsp (c : Command) (s : State) (y : Word) : perform c { s with rsp := y } = perform c s :=
  (perform_context c s s.inFlight s.program y s.rspValid).trans
    (perform_context c s s.inFlight s.program s.rsp s.rspValid).symm

theorem edge_rsp_of_not_completing {w : Nat} {i : PinsIn} {s t : State} (h : edge w i s = .next t) (hr : i.rst = false)
    (hc : completesAt i s = []) : t.rsp = s.rsp := by
  obtain ⟨hr', -, -⟩ | ⟨-, c, -, hc', -⟩ | ⟨-, -, ⟨c, n, -, rfl⟩ | ⟨-, -, rfl⟩ | ⟨-, -, rfl⟩⟩ := edge_inversion h
  · cases hr.symm.trans hr'
  · cases hc.symm.trans hc'
  · exact holdCommand_rsp n c s
  · exact holdCommand_rsp w _ s
  · exact idle_rsp s

theorem perform_of_completesAt {w : Nat} {i : PinsIn} {s t : State} {c : Command} (h : edge w i s = .next t)
    (hc : completesAt i s = [c]) : perform c { s with inFlight := none } = .next t := by
  obtain ⟨-, hc', -⟩ | ⟨-, d, -, hc', hd⟩ | ⟨-, hc', -⟩ := edge_inversion h
  · cases hc.symm.trans hc'
  · cases hc.symm.trans hc'
    exact hd
  · cases hc.symm.trans hc'

/-- Settles O52: an edge resets, completes one command or leaves RSP, and `perform` does not depend on RSP. -/
theorem responseRegisterHolds : Obligations.ResponseRegisterHolds := by
  refine ⟨fun w i s t h => ⟨fun hr => ?_, edge_rsp_of_not_completing h, fun c => perform_of_completesAt h⟩,
    perform_ignores_rsp, fun _ _ => rfl, rfl⟩
  cases (edge_of_rst s hr).symm.trans h
  exact resetBlock_rsp s

end Sys2Proof.Proofs
end

section
/-!
PROOFS. Issue order and byte order (spec/20_memory.md rules R29 and R33): what a command's effect and response depend on, what
running a longer list shows, and the lanes of an operand packed little-endian.
-/
namespace Sys2Proof.Proofs

open Sys2Proof Sys2Proof.Machine Sys2Proof.Safety

/-! ## Responses in issue order -/

theorem exec_goesOn (i : Instr) (s : State) : GoesOn (exec i s) := by
  cases i <;> exact ⟨_, rfl⟩

theorem perform_goesOn (c : Command) (s : State) : GoesOn (perform c s) := by
  cases hd : decode c with
  | ok i => exact perform_of_decode_ok s hd ▸ exec_goesOn i s
  | error e => exact ⟨_, perform_of_decode_error s hd⟩

/-- Of the state a command reads CRC and STATUS only: the rest is the context of `perform_context`. -/
theorem perform_agrees {c : Command} {s t s' t' : State} (hcrc : s.crc = t.crc) (hstatus : s.status = t.status)
    (hs : perform c s = .next s') (ht : perform c t = .next t') :
    s'.crc = t'.crc ∧ s'.status = t'.status ∧ s'.rsp = t'.rsp := by
  have hctx := perform_context c s t.inFlight t.program t.rsp t.rspValid
  rw [hs, hcrc, hstatus] at hctx
  cases ht.symm.trans hctx
  exact ⟨rfl, rfl, rfl⟩

theorem runCommands_cons {c : Command} {s t : State} (h : perform c s = .next t) (cs : List Command) :
    runCommands (c :: cs) s = runCommands cs t := by
  rw [runCommands, h, andThen]

theorem observe_cons {c : Command} {s t : State} {cs : List Command} {o : Observation} (hc : perform c s = .next t)
    (ho : observe cs t = .next o) : observe (c :: cs) s = .next { o with responses := t.rsp :: o.responses } := by
  rw [observe, hc, andThen, ho, andThen]

theorem observe_goesOn (cs : List Command) (s : State) : ∃ o, observe cs s = .next o := by
  induction cs generalizing s with
  | nil => exact ⟨_, rfl⟩
  | cons c cs ih =>
    obtain ⟨t, ht⟩ := perform_goesOn c s
    obtain ⟨o, ho⟩ := ih t
    exact ⟨_, observe_cons ht ho⟩

/-- The responses of a list stand unchanged before those of the commands that follow it. -/
theorem observe_append (cs ds : List Command) (s : State) : ∃ (t : State) (o q : Observation),
    runCommands cs s = .next t ∧ observe cs s = .next o ∧ observe ds t = .next q ∧
    o.responses.length = cs.length ∧
    observe (cs ++ ds) s = .next { q with responses := o.responses ++ q.responses } := by
  induction cs generalizing s with
  | nil =>
    obtain ⟨q, hq⟩ := observe_goesOn ds s
    exact ⟨s, _, q, rfl, rfl, hq, rfl, hq⟩
  | cons c cs ih =>
    obtain ⟨u, hu⟩ := perform_goesOn c s
    obtain ⟨t, o, q, hrun, ho, hq, hlen, happend⟩ := ih u
    exact ⟨t, _, q, (runCommands_cons hu cs).trans hrun, observe_cons hu ho, hq, congrArg (· + 1) hlen,
      observe_cons hu happend⟩

/-- Settles O29: a command reads CRC and STATUS only, and a run is observed command by command. -/
theorem responsesInIssueOrder : Obligations.ResponsesInIssueOrder :=
  ⟨fun _ _ _ _ _ => perform_agrees, observe_append⟩

/-! ## Lanes in stream order -/

theorem packLanes_four (b0 b1 b2 b3 : Byte) :
    packLanes [b0, b1, b2, b3] =
      b0.setWidth 32 ||| (b1.setWidth 32 <<< 8) ||| (b2.setWidth 32 <<< 16) ||| (b3.setWidth 32 <<< 24) := by
  simp [packLanes, BitVec.shiftLeft_or_distrib, ← BitVec.shiftLeft_add, BitVec.or_assoc]

theorem take_lanes {n m : Nat} (h : n ≤ m) (a : Word) : (lanes m a).take n = lanes n a := by
  induction m, h using Nat.le_induction with
  | base => exact List.take_of_length_le (length_lanes n a).le
  | succ m hm ih => rw [lanes, List.take_append_of_le_length (by rwa [length_lanes]), ih]

/-- UPDn absorbs the first n of four packed bytes. -/
theorem lanes_packLanes_of_le {n : Nat} (h : n ≤ 4) (b0 b1 b2 b3 : Byte) :
    lanes n (packLanes [b0, b1, b2, b3]) = [b0, b1, b2, b3].take n := by
  rw [← take_lanes h, lanes_packLanes_four]

/-- Settles O31: the packed bytes are the lanes in order, and the two CRCs are evaluated. -/
theorem lanesInStreamOrder : Obligations.LanesInStreamOrder := by
  refine ⟨?_, fun _ _ => rfl, by decide, by decide⟩
  intro a b0 b1 b2 b3 s ha
  rw [← packLanes_four] at ha
  have hcrc (n : Nat) (hn : n ≤ 4) :
      (update (lanes n a) s).crc = absorbAll s.crc ([b0, b1, b2, b3].take n) := by
    rw [update_crc, ha, lanes_packLanes_of_le hn]
  exact ⟨_, _, _, _, rfl, hcrc 1 (by decide), rfl, hcrc 2 (by decide), rfl, hcrc 3 (by decide), rfl, hcrc 4 le_rfl⟩

end Sys2Proof.Proofs
end

section
/-!
PROOFS. The encoding (spec/30_encoding.md rules R45 to R49, R52 and R53): decoding against encoding, the fields of a command
word, illegal words, the bits of operand A a command uses, and what the lines of an assembler expand to.
-/
namespace Sys2Proof.Proofs

open Sys2Proof Sys2Proof.Machine Sys2Proof.Safety

/-! ## Decoding and encoding agree -/

theorem decode_encode : ∀ i : Instr, decode (encode i) = .ok i
  | .nop a => (Laws.RoundTrip.nop a).2
  | .init a => (Laws.RoundTrip.init a).2
  | .load a => (Laws.RoundTrip.load a).2
  | .read a => (Laws.RoundTrip.read a).2
  | .upd1 a => (Laws.RoundTrip.upd1 a).2
  | .upd2 a => (Laws.RoundTrip.upd2 a).2
  | .upd3 a => (Laws.RoundTrip.upd3 a).2
  | .upd4 a => (Laws.RoundTrip.upd4 a).2
  | .check a => (Laws.RoundTrip.check a).2
  | .lutrd a => (Laws.RoundTrip.lutrd a).2
  | .poly a => (Laws.RoundTrip.poly a).2
  | .stat a => (Laws.RoundTrip.stat a).2
  | .clrst a => (Laws.RoundTrip.clrst a).2

theorem decode_eq_ok_iff (c : Command) (i : Instr) : decode c = .ok i ↔ c = encode i := by
  refine ⟨eq_encode_of_decode_ok, ?_⟩
  rintro rfl
  exact decode_encode i

/-- Settles O1: the rows of the table hold by evaluation, and the decoder inverts the encoder. -/
theorem encodingTable : Obligations.EncodingTable := by
  refine ⟨fun a => ?_, decode_eq_ok_iff⟩
  and_intros <;> rfl

/-! ## The subfields of OP in the update group -/

/-- OP[7:2] selects the update group, and within it OP[1:0] + 1 is the number of lanes absorbed (R45). -/
theorem messageBytes_eq_lanes_of_opcode (i : Instr) :
    messageBytes i = if (encode i).word.extractLsb' 2 6 = 0b000010#6
      then lanes (((encode i).word.extractLsb' 0 2).toNat + 1) i.operand else [] := by
  cases i <;> simp [messageBytes, encode, Instr.opcode, Instr.operand]

theorem lanes_succ_ne_nil (n : Nat) (a : Word) : lanes (n + 1) a ≠ [] :=
  List.ne_nil_of_length_eq_add_one (length_lanes (n + 1) a)

theorem updateWord_mem_legalWords : ∀ n : BitVec 2, (0x000000#24 ++ 0b000010#6 ++ n : Word) ∈ legalWords := by
  have hvalues : ∀ n : BitVec 2, n = 0#2 ∨ n = 1#2 ∨ n = 2#2 ∨ n = 3#2 := by decide
  intro n
  obtain rfl | rfl | rfl | rfl := hvalues n <;> decide

/-- Settles O4, by the fields of an encoded word. -/
theorem updateOpcodeSubfield : Obligations.UpdateOpcodeSubfield := by
  refine ⟨fun c i h => ?_, fun n a => decode_ok_of_mem_legalWords a _ (updateWord_mem_legalWords n)⟩
  obtain rfl := eq_encode_of_decode_ok h
  refine ⟨reservedField_setWidth i.opcode, opcodeField_setWidth i.opcode, ?_, fun hupd => ?_⟩
  · rw [messageBytes_eq_lanes_of_opcode]
    split
    next hupd => exact iff_of_true (lanes_succ_ne_nil _ _) hupd
    next hupd => exact iff_of_false (fun hne => hne rfl) hupd
  · rw [messageBytes_eq_lanes_of_opcode, if_pos hupd]
    rfl

/-! ## Illegal words -/

theorem encode_word_mem_legalWords (i : Instr) : (encode i).word ∈ legalWords := by
  cases i <;> exact of_decide_eq_true rfl

theorem reservedField_of_mem_legalWords {w : Word} (h : w ∈ legalWords) : reservedField w = 0#24 := by
  obtain ⟨i, hi⟩ := decode_ok_of_mem_legalWords 0#32 w h
  obtain rfl : w = (encode i).word := congrArg Command.word (eq_encode_of_decode_ok hi)
  exact reservedField_setWidth i.opcode

theorem perform_of_not_mem_legalWords {c : Command} (s : State) (h : c.word ∉ legalWords) :
    perform c s = .next (illegalCommand s) := by
  cases hd : decode c with
  | ok i =>
    obtain rfl := eq_encode_of_decode_ok hd
    exact absurd (encode_word_mem_legalWords i) h
  | error e => exact perform_of_decode_error s hd

/-- Settles O5: a word outside the table is no encoding, so the command is `illegalCommand`. -/
theorem illegalCommandOnlySetsIll : Obligations.IllegalCommandOnlySetsIll :=
  ⟨fun _ s h => perform_of_not_mem_legalWords s h, fun _ hrsv hw => hrsv (reservedField_of_mem_legalWords hw)⟩

/-! ## The bits of operand A a command uses -/

/-- The same command with another operand. -/
def withOperand (a : Word) : Instr → Instr
  | .nop _ => .nop a
  | .init _ => .init a
  | .load _ => .load a
  | .read _ => .read a
  | .upd1 _ => .upd1 a
  | .upd2 _ => .upd2 a
  | .upd3 _ => .upd3 a
  | .upd4 _ => .upd4 a
  | .check _ => .check a
  | .lutrd _ => .lutrd a
  | .poly _ => .poly a
  | .stat _ => .stat a
  | .clrst _ => .clrst a

theorem encode_withOperand (a : Word) (i : Instr) :
    encode (withOperand a i) = { word := (encode i).word, arg := a } := by
  cases i <;> rfl

theorem decode_of_word_eq {c d : Command} {i : Instr} (h : decode c = .ok i) (hw : d.word = c.word) :
    decode d = .ok (withOperand d.arg i) := by
  rw [decode_eq_ok_iff, encode_withOperand, ← eq_encode_of_decode_ok h, ← hw]

theorem lane_and (a m : Word) (k : Nat) : lane (a &&& m) k = lane a k &&& lane m k := BitVec.extractLsb'_and

/-- A mask that covers a lane shows it. -/
theorem lane_eq_of_and_eq {a b m : Word} {k : Nat} (hm : lane m k = 0xFF#8) (h : a &&& m = b &&& m) :
    lane a k = lane b k := by
  have hlane := congrArg (lane · k) h
  have hones (x : Byte) : x &&& 0xFF#8 = x := BitVec.and_allOnes
  simpa only [lane_and, hm, hones] using hlane

theorem lanes_eq_of_and_eq {n : Nat} {a b m : Word} (hm : ∀ k < n, lane m k = 0xFF#8) (h : a &&& m = b &&& m) :
    lanes n a = lanes n b := by
  induction n with
  | zero => rfl
  | succ n ih =>
    rw [lanes, lanes, ih fun k hk => hm k (Nat.lt_succ_of_lt hk), lane_eq_of_and_eq (hm n n.lt_succ_self) h]

theorem eq_of_and_ones_eq {a b : Word} (h : a &&& 0xFFFFFFFF#32 = b &&& 0xFFFFFFFF#32) : a = b := by
  have hones (x : Word) : x &&& 0xFFFFFFFF#32 = x := BitVec.and_allOnes
  rwa [hones, hones] at h

/-- The bits of A outside `operandMask` do not affect what a command does (R46). -/
theorem exec_withOperand {a : Word} {i : Instr} (s : State)
    (h : a &&& operandMask i = i.operand &&& operandMask i) : exec (withOperand a i) s = exec i s := by
  have hupdate {n : Nat} {b m : Word} (hm : ∀ k < n, lane m k = 0xFF#8) (h : a &&& m = b &&& m) :
      (Host.Outcome.next (update (lanes n a) s) : Host.Outcome State Fault Refusal) = .next (update (lanes n b) s) := by
    rw [lanes_eq_of_and_eq hm h]
  cases i with
  | nop | init | read | poly | stat | clrst => rfl
  | load b =>
    obtain rfl : a = b := eq_of_and_ones_eq h
    rfl
  | check b =>
    obtain rfl : a = b := eq_of_and_ones_eq h
    rfl
  | upd1 b => exact hupdate (m := 0x000000FF#32) (by decide) h
  | upd2 b => exact hupdate (m := 0x0000FFFF#32) (by decide) h
  | upd3 b => exact hupdate (m := 0x00FFFFFF#32) (by decide) h
  | upd4 b => exact hupdate (m := 0xFFFFFFFF#32) (by decide) h
  | lutrd b =>
    have hindex : tableIndex a = tableIndex b := lane_eq_of_and_eq (k := 0) (m := 0x000000FF#32) (by decide) h
    change execLutrd a s = execLutrd b s
    rw [execLutrd, execLutrd, hindex]

/-- Settles O30: a legal word decodes with any operand, whose used bits alone count; an illegal word ignores A. -/
theorem unusedOperandBitsIgnored : Obligations.UnusedOperandBitsIgnored := by
  refine ⟨fun a => ?_, fun c d i s hc hw hmask => ?_, fun c d e s hc hw => ?_⟩
  · exact ⟨by simp [operandMask], rfl, rfl, rfl, rfl, rfl, rfl, rfl, rfl, rfl, by simp [operandMask]⟩
  · have hd := decode_of_word_eq hc hw
    obtain rfl := eq_encode_of_decode_ok hc
    exact ⟨⟨_, hd⟩, by rw [perform_of_decode_ok s hd, perform_of_decode_ok s hc, exec_withOperand s hmask]⟩
  · have hc' := not_mem_legalWords_of_decode_error hc
    rw [perform_of_not_mem_legalWords s hc', perform_of_not_mem_legalWords s (hw ▸ hc')]

/-! ## Pseudo-instructions -/

/-- A command that absorbs bytes does no more than that. -/
theorem exec_of_messageBytes_ne_nil {i : Instr} (s : State) (h : messageBytes i ≠ []) :
    exec i s = .next (update (messageBytes i) s) := by
  cases i with
  | upd1 | upd2 | upd3 | upd4 => rfl
  | nop | init | load | read | check | lutrd | poly | stat | clrst => exact absurd rfl h

theorem absorbAll_append (c : Word) (xs ys : List Byte) : absorbAll c (xs ++ ys) = absorbAll (absorbAll c xs) ys :=
  List.foldl_append

/-- A run of update commands absorbs their bytes in order and no other. -/
theorem runCommands_map_encode_crc {is : List Instr} (h : ∀ i ∈ is, messageBytes i ≠ []) (s : State) :
    ∃ t : State, runCommands (is.map encode) s = .next t ∧ t.crc = absorbAll s.crc (is.flatMap messageBytes) := by
  induction is generalizing s with
  | nil => exact ⟨s, rfl, rfl⟩
  | cons i is ih =>
    obtain ⟨hi, his⟩ := List.forall_mem_cons.mp h
    obtain ⟨t, hrun, hcrc⟩ := ih his (update (messageBytes i) s)
    have hperform : perform (encode i) s = .next (update (messageBytes i) s) :=
      (perform_of_decode_ok s (decode_encode i)).trans (exec_of_messageBytes_ne_nil s hi)
    refine ⟨t, (runCommands_cons hperform _).trans hrun, ?_⟩
    rw [hcrc, update_crc, List.flatMap_cons, absorbAll_append]

/-- What a command of UPDB is: it absorbs bytes, and its operand is those bytes packed. -/
structure PacksItsBytes (i : Instr) : Prop where
  absorbs : messageBytes i ≠ []
  packed : i.operand = packLanes (messageBytes i)

theorem messageBytes_upd4_packLanes (b0 b1 b2 b3 : Byte) :
    messageBytes (.upd4 (packLanes [b0, b1, b2, b3])) = [b0, b1, b2, b3] := lanes_packLanes_four b0 b1 b2 b3

theorem messageBytes_upd3_packLanes (b0 b1 b2 : Byte) :
    messageBytes (.upd3 (packLanes [b0, b1, b2])) = [b0, b1, b2] := lanes_packLanes_three b0 b1 b2

theorem messageBytes_upd2_packLanes (b0 b1 : Byte) :
    messageBytes (.upd2 (packLanes [b0, b1])) = [b0, b1] := lanes_packLanes_two b0 b1

theorem messageBytes_upd1_packLanes (b0 : Byte) :
    messageBytes (.upd1 (packLanes [b0])) = [b0] := lanes_packLanes_one b0

theorem packsItsBytes_of_messageBytes_eq {i : Instr} {b : Byte} {bs : List Byte} (h : messageBytes i = b :: bs)
    (ha : i.operand = packLanes (b :: bs)) : PacksItsBytes i :=
  ⟨h ▸ List.cons_ne_nil b bs, h ▸ ha⟩

theorem packsItsBytes_of_mem_updb (bytes : List Byte) : ∀ i ∈ updb bytes, PacksItsBytes i := by
  induction bytes using updb.induct with
  | case1 b0 b1 b2 b3 rest ih =>
    exact List.forall_mem_cons.mpr
      ⟨packsItsBytes_of_messageBytes_eq (messageBytes_upd4_packLanes b0 b1 b2 b3) rfl, ih⟩
  | case2 b0 b1 b2 =>
    exact List.forall_mem_singleton.mpr (packsItsBytes_of_messageBytes_eq (messageBytes_upd3_packLanes b0 b1 b2) rfl)
  | case3 b0 b1 =>
    exact List.forall_mem_singleton.mpr (packsItsBytes_of_messageBytes_eq (messageBytes_upd2_packLanes b0 b1) rfl)
  | case4 b0 =>
    exact List.forall_mem_singleton.mpr (packsItsBytes_of_messageBytes_eq (messageBytes_upd1_packLanes b0) rfl)
  | case5 => exact List.forall_mem_nil _

theorem flatMap_messageBytes_updb (bytes : List Byte) : (updb bytes).flatMap messageBytes = bytes := by
  induction bytes using updb.induct with
  | case1 b0 b1 b2 b3 rest ih => rw [updb, List.flatMap_cons, messageBytes_upd4_packLanes, ih]; rfl
  | case2 b0 b1 b2 => rw [updb, List.flatMap_singleton, messageBytes_upd3_packLanes]
  | case3 b0 b1 => rw [updb, List.flatMap_singleton, messageBytes_upd2_packLanes]
  | case4 b0 => rw [updb, List.flatMap_singleton, messageBytes_upd1_packLanes]
  | case5 => rfl

theorem length_updb (bytes : List Byte) : (updb bytes).length = (bytes.length + 3) / 4 := by
  induction bytes using updb.induct with
  | case1 b0 b1 b2 b3 rest ih =>
    simp only [updb, List.length_cons, ih]
    omega
  | case2 | case3 | case4 | case5 => simp [updb]

/-- Every full group of four bytes is a UPD4. -/
theorem getElem?_updb_of_lt (bytes : List Byte) {k : Nat} (hk : k < bytes.length / 4) :
    ∃ a, (updb bytes)[k]? = some (.upd4 a) := by
  induction bytes using updb.induct generalizing k with
  | case1 b0 b1 b2 b3 rest ih =>
    cases k with
    | zero => exact ⟨_, rfl⟩
    | succ k =>
      simp only [List.length_cons] at hk
      exact ih (by omega)
  | case2 | case3 | case4 | case5 => exact absurd hk (by simp)

/-- What the pairs of UPDB absorb, from every state. -/
theorem runCommands_updb (bytes : List Byte) (s : State) :
    ∃ t : State, runCommands (expandLine (.updb bytes)) s = .next t ∧ t.crc = absorbAll s.crc bytes := by
  have h := runCommands_map_encode_crc (fun i hi => (packsItsBytes_of_mem_updb bytes i hi).absorbs) s
  rwa [flatMap_messageBytes_updb] at h

/-- Settles O43: the facts about `updb`, each by its recursion over groups of four bytes, and the one-pair expansions. -/
theorem pseudoInstructionsExpand : Obligations.PseudoInstructionsExpand := by
  refine ⟨fun bytes s => ?_, fun _ => rfl, fun _ => rfl, fun _ _ => List.flatMap_append, fun _ => rfl, rfl, rfl,
    fun _ => rfl, fun b0 b1 b2 b3 => ?_⟩
  · obtain ⟨t, hrun, hcrc⟩ := runCommands_updb bytes s
    exact ⟨t, hrun, hcrc, flatMap_messageBytes_updb bytes, length_updb bytes,
      fun i hi => (packsItsBytes_of_mem_updb bytes i hi).packed, fun k => getElem?_updb_of_lt bytes⟩
  · rw [expandLine, packLanes_four]
    rfl

end Sys2Proof.Proofs
end

section
/-!
PROOFS. The control commands NOP, INIT, LOAD and READ (spec/40_control.md rules R60 to R63): the state each leaves, which of
them are idempotent, and zero bytes absorbed from a zero accumulator.
-/
namespace Sys2Proof.Proofs

open Sys2Proof Sys2Proof.Machine

/-! ## What each command leaves, in the operations of the state -/

theorem exec_nop (a : Word) (s : State) : exec (.nop a) s = .next (respond s.crc s) := rfl

theorem exec_init (a : Word) (s : State) :
    exec (.init a) s = .next (respond 0x00000000#32 (writeCrc 0x00000000#32 s)) := rfl

theorem exec_load (a : Word) (s : State) : exec (.load a) s = .next (respond a (writeCrc a s)) := rfl

theorem exec_read (a : Word) (s : State) : exec (.read a) s = .next (respond s.crc s) := rfl

/-! ## Writing CRC and responding -/

theorem clearCheck_eq_and (st : Word) : clearCheck st = st &&& 0xFFFFFFFC#32 := by
  have hmask : ~~~(chkMask ||| matchMask) = 0xFFFFFFFC#32 := by decide
  rw [clearCheck, hmask]

theorem clearCheck_idempotent (st : Word) : clearCheck (clearCheck st) = clearCheck st := by
  rw [clearCheck, clearCheck, BitVec.and_assoc, BitVec.and_self]

/-- The whole state after a command that writes CRC: bits 0 and 1 of STATUS are cleared, the others kept. -/
theorem respond_writeCrc (y v : Word) (s : State) :
    respond y (writeCrc v s) =
      { s with crc := v, status := s.status &&& 0xFFFFFFFC#32, rsp := y, rspValid := true } := by
  rw [respond, writeCrc, clearCheck_eq_and]

/-- Of two commands that write CRC the second alone counts. -/
theorem respond_writeCrc_overwrites (y v z w : Word) (s : State) :
    respond y (writeCrc v (respond z (writeCrc w s))) = respond y (writeCrc v s) := by
  rw [writeCrc, respond_status, writeCrc_status, clearCheck_idempotent]
  rfl

/-- A command that only responds with CRC changes nothing when it is repeated. -/
theorem respond_crc_idempotent (s : State) :
    respond (respond s.crc s).crc (respond s.crc s) = respond s.crc s := rfl

/-! ## Zero bytes from a zero accumulator -/

theorem absorb_zero_zero : absorb 0x00000000#32 0x00#8 = 0x00000000#32 := by decide

theorem absorbAll_replicate_zero (k : Nat) : absorbAll 0x00000000#32 (List.replicate k 0x00#8) = 0x00000000#32 := by
  induction k with
  | zero => rfl
  | succ k ih => rw [List.replicate_succ, absorbAll_cons, absorb_zero_zero, ih]

/-- Leading zero bytes do not change the CRC of a message computed from 0. -/
theorem absorbAll_replicate_zero_append (k : Nat) (bytes : List Byte) :
    absorbAll 0x00000000#32 (List.replicate k 0x00#8 ++ bytes) = absorbAll 0x00000000#32 bytes := by
  rw [absorbAll_append, absorbAll_replicate_zero]

/-! ## The four commands -/

/-- Settles O11: NOP is encoded by the zero word, and only responds. -/
theorem nopRespondsCrc : Obligations.NopRespondsCrc :=
  fun a s => ⟨decode_encode (.nop a), exec_nop a s⟩

/-- Settles O12: a second INIT overwrites the first, and a zero accumulator absorbs zero bytes without a change. -/
theorem initStartsFromZero : Obligations.InitStartsFromZero := by
  refine ⟨fun a s => ⟨decode_encode (.init a), ?_⟩, fun a b s t u ht hu => ?_, absorbAll_replicate_zero,
    absorbAll_replicate_zero_append⟩
  · rw [exec_init, respond_writeCrc]
  · cases (exec_init a s).symm.trans ht
    cases (exec_init b _).symm.trans hu
    exact respond_writeCrc_overwrites _ _ _ _ s

/-- Settles O13: LOAD writes CRC with A as INIT does with 0. -/
theorem loadSetsCrc : Obligations.LoadSetsCrc := by
  refine ⟨fun a s => ⟨decode_encode (.load a), ?_⟩, fun a s => ?_⟩
  · rw [exec_load, respond_writeCrc]
  · rw [exec_load, exec_init]

/-- Settles O14: READ only responds, so a second READ finds the same CRC. -/
theorem readRespondsCrc : Obligations.ReadRespondsCrc := by
  refine ⟨fun a s => ⟨decode_encode (.read a), exec_read a s⟩, fun a b s t u ht hu => ?_⟩
  cases (exec_read a s).symm.trans ht
  cases (exec_read b _).symm.trans hu
  exact respond_crc_idempotent s

end Sys2Proof.Proofs
end

section
/-!
PROOFS. The update commands UPD1 to UPD4 (spec/41_update.md rules R70 to R76): the state each leaves, its equality with UPD1
for each lane, Absorb as eight steps of the CRC, and a step as multiplication by x modulo P(x).
-/
namespace Sys2Proof.Proofs

open Sys2Proof Sys2Proof.Machine Sys2Proof.Safety

/-! ## What an update leaves -/

theorem exec_upd1 (a : Word) (s : State) : exec (.upd1 a) s = .next (update (lanes 1 a) s) := rfl

theorem exec_upd2 (a : Word) (s : State) : exec (.upd2 a) s = .next (update (lanes 2 a) s) := rfl

theorem exec_upd3 (a : Word) (s : State) : exec (.upd3 a) s = .next (update (lanes 3 a) s) := rfl

theorem exec_upd4 (a : Word) (s : State) : exec (.upd4 a) s = .next (update (lanes 4 a) s) := rfl

/-- The whole state after an update. -/
theorem update_eq (bytes : List Byte) (s : State) :
    update bytes s = { s with
      crc := absorbAll s.crc bytes, status := s.status &&& 0xFFFFFFFC#32, rsp := absorbAll s.crc bytes, rspValid := true } :=
  respond_writeCrc _ _ s

/-- Two updates are one update with the bytes of both, in order. -/
theorem update_update (xs ys : List Byte) (s : State) : update ys (update xs s) = update (xs ++ ys) s := by
  have hcrc : absorbAll (update xs s).crc ys = absorbAll s.crc (xs ++ ys) := (absorbAll_append s.crc xs ys).symm
  rw [update, hcrc]
  exact respond_writeCrc_overwrites _ _ _ _ s

theorem lanes_one_ushiftRight (a : Word) (k : Nat) : lanes 1 (a >>> (8 * k)) = [lane a k] := by
  have hlane : lane (a >>> (8 * k)) 0 = lane a k := by
    ext j hj
    simp [lane]
  rw [lanes, lanes, hlane, List.nil_append]

/-- One more lane is one more UPD1, of A shifted down to that lane. -/
theorem next_update_lanes_succ (n : Nat) (a : Word) (s : State) :
    (.next (update (lanes (n + 1) a) s) : Host.Outcome State Fault Refusal) =
      andThen (.next (update (lanes n a) s)) (exec (.upd1 (a >>> (8 * n)))) := by
  rw [andThen, exec_upd1, lanes_one_ushiftRight, update_update, lanes]

/-! ## Absorb is eight steps -/

/-- While only zeros leave at the top, a step is a shift. -/
theorem crcSteps_eq_shiftLeft {n : Nat} {r : Word} (h : ∀ k < n, r.getLsbD (31 - k) = false) : crcSteps n r = r <<< n := by
  induction n generalizing r with
  | zero => exact (BitVec.shiftLeft_zero r).symm
  | succ n ih =>
    have hstep : crcStep r = r <<< 1 := if_neg (Bool.not_eq_true _ ▸ h 0 n.succ_pos)
    have hnext (k : Nat) (hk : k < n) : (r <<< 1).getLsbD (31 - k) = false := by
      rw [BitVec.getLsbD_shiftLeft, Nat.sub_sub, h (k + 1) (Nat.succ_lt_succ hk), Bool.and_false]
    rw [crcSteps_succ, hstep, ih hnext, ← BitVec.shiftLeft_add, Nat.add_comm]

/-- Absorb by the table is eight steps from the accumulator with the byte added at its top (R71): the table holds the eight
steps of the top byte, and the other 24 bits are only shifted. -/
theorem absorb_eq_crcSteps (c : Word) (b : Byte) : absorb c b = crcSteps 8 (c ^^^ (b.setWidth 32 <<< 24)) := by
  have hsplit : c ^^^ (b.setWidth 32 <<< 24) =
      (c.setWidth 24).setWidth 32 ^^^ (((c >>> 24 ^^^ b.setWidth 32).extractLsb' 0 8).setWidth 32 <<< 24) := by
    ext k hk
    by_cases hlow : k < 24
    · simp [hlow, BitVec.getLsbD_eq_getElem hk]
    · have htop : 24 + (k - 24) = k := by omega
      have h8 : k - 24 < 8 := by omega
      have h32 : k - 24 < 32 := by omega
      simp [hlow, htop, h8, h32, BitVec.getLsbD_eq_getElem hk]
  have hlow : crcSteps 8 ((c.setWidth 24).setWidth 32) = (c.setWidth 24).setWidth 32 <<< 8 :=
    crcSteps_eq_shiftLeft fun k hk => by simp; omega
  have hshift : (c.setWidth 24).setWidth 32 <<< 8 = c <<< 8 := by
    ext k hk
    by_cases h8 : k < 8
    · simp [h8]
    · have hk24 : k - 8 < 24 := by omega
      simp [h8, hk24, BitVec.getLsbD_eq_getElem (show k - 8 < 32 by omega)]
  rw [hsplit, crcSteps_xor, hlow, hshift]
  rfl

theorem absorb_zero (c : Word) : absorb c 0x00#8 = crcSteps 8 c := by
  simp [absorb_eq_crcSteps]

theorem crcSteps_add (m n : Nat) (r : Word) : crcSteps (m + n) r = crcSteps n (crcSteps m r) := by
  induction m generalizing r with
  | zero => rw [Nat.zero_add, crcSteps_zero]
  | succ m ih => rw [Nat.add_right_comm, crcSteps_succ, crcSteps_succ, ih]

theorem absorbAll_replicate_zero_eq_crcSteps (c : Word) (k : Nat) :
    absorbAll c (List.replicate k 0x00#8) = crcSteps (8 * k) c := by
  induction k generalizing c with
  | zero => rfl
  | succ k ih => rw [List.replicate_succ, absorbAll_cons, absorb_zero, ih, ← crcSteps_add, Nat.mul_succ, Nat.add_comm]

/-! ## The polynomial of a word -/

section
open Polynomial

theorem coeff_ite_X_pow (b : Bool) (j k : Nat) :
    (if b then X ^ j else 0 : (ZMod 2)[X]).coeff k = if k = j then (if b then 1 else 0) else 0 := by
  cases b <;> simp [coeff_X_pow]

theorem coeff_bitPoly {w : Nat} (v : BitVec w) (k : Nat) : (bitPoly v).coeff k = if v.getLsbD k then 1 else 0 := by
  simp only [bitPoly, finsetSum_coeff, coeff_ite_X_pow, Finset.sum_ite_eq, Finset.mem_range]
  by_cases hk : k < w
  · rw [if_pos hk]
  · rw [if_neg hk, BitVec.getLsbD_of_ge v k (by omega)]
    rfl

theorem bitPoly_injective {w : Nat} : Function.Injective (bitPoly : BitVec w → (ZMod 2)[X]) := by
  intro u v h
  refine BitVec.eq_of_getLsbD_eq fun k _ => ?_
  have hk := congrArg (coeff · k) h
  simp only [coeff_bitPoly] at hk
  revert hk
  cases u.getLsbD k <;> cases v.getLsbD k <;> simp

theorem bitPoly_zero (w : Nat) : bitPoly (0#w) = 0 := by
  ext k
  simp [coeff_bitPoly]

theorem bitPoly_xor {w : Nat} (u v : BitVec w) : bitPoly (u ^^^ v) = bitPoly u + bitPoly v := by
  have hone : (1 + 1 : ZMod 2) = 0 := by decide
  ext k
  simp only [coeff_add, coeff_bitPoly, BitVec.getLsbD_xor]
  cases u.getLsbD k <;> cases v.getLsbD k <;> simp [hone]

theorem degree_bitPoly_lt {w : Nat} (v : BitVec w) : (bitPoly v).degree < w := by
  rw [degree_lt_iff_coeff_zero]
  intro k hk
  simp [coeff_bitPoly, BitVec.getLsbD_of_ge v k hk]

theorem eval_one_bitPoly {w : Nat} (v : BitVec w) :
    (bitPoly v).eval 1 = ∑ k ∈ Finset.range w, if v.getLsbD k then (1 : ZMod 2) else 0 := by
  rw [bitPoly, eval_finsetSum]
  refine Finset.sum_congr rfl fun k _ => ?_
  cases v.getLsbD k <;> simp

theorem generator_monic : generator.Monic := monic_X_pow_add (degree_bitPoly_lt Config.poly)

theorem degree_generator : generator.degree = 32 := by
  rw [generator, degree_add_eq_left_of_degree_lt] <;> rw [degree_X_pow]
  · rfl
  · exact degree_bitPoly_lt Config.poly

theorem bitPoly_modByMonic_generator (c : Word) : bitPoly c %ₘ generator = bitPoly c := by
  rw [modByMonic_eq_self_iff generator_monic, degree_generator]
  exact degree_bitPoly_lt c

/-! ## A step multiplies by x modulo P(x) -/

/-- The product with x is the shifted word, and x^32 for the bit that leaves at the top. -/
theorem bitPoly_mul_X (r : Word) : bitPoly r * X = bitPoly (r <<< 1) + if r.getLsbD 31 then X ^ 32 else 0 := by
  ext k
  rw [coeff_add, coeff_ite_X_pow, coeff_bitPoly, BitVec.getLsbD_shiftLeft]
  cases k with
  | zero => simp
  | succ k =>
    rw [coeff_mul_X, coeff_bitPoly]
    obtain hk | rfl | hk := Nat.lt_trichotomy k 31
    · simp [hk.ne, show k + 1 < 32 by omega]
    · simp
    · simp [hk.ne', BitVec.getLsbD_of_ge r k hk]

theorem bitPoly_mul_X_eq_crcStep (r : Word) :
    bitPoly r * X = bitPoly (crcStep r) + if r.getLsbD 31 then generator else 0 := by
  have hpoly : bitPoly Config.poly + bitPoly Config.poly = 0 := CharTwo.add_self_eq_zero _
  rw [bitPoly_mul_X, crcStep]
  split
  · rw [bitPoly_xor, generator]
    linear_combination -hpoly
  · rfl

theorem bitPoly_crcSteps (n : Nat) (r : Word) : bitPoly (crcSteps n r) = (bitPoly r * X ^ n) %ₘ generator := by
  induction n generalizing r with
  | zero => rw [crcSteps_zero, pow_zero, mul_one, bitPoly_modByMonic_generator]
  | succ n ih =>
    rw [crcSteps_succ, ih]
    have hdvd : generator ∣ bitPoly (crcStep r) - bitPoly r * X := by
      rw [bitPoly_mul_X_eq_crcStep]
      split <;> simp
    have hprod : bitPoly (crcStep r) * X ^ n - bitPoly r * X ^ (n + 1) = (bitPoly (crcStep r) - bitPoly r * X) * X ^ n := by
      ring
    refine modByMonic_eq_of_dvd_sub generator_monic ?_
    rw [hprod]
    exact hdvd.mul_right (X ^ n)

/-- P(1) = 1: P has an odd number of terms. -/
theorem eval_one_generator : generator.eval 1 = 1 := by
  rw [generator, eval_add, eval_one_bitPoly, eval_pow, eval_X]
  decide

/-- Over GF(2), x^32 + 1 is (x + 1)^32, and x + 1 does not divide P(x). -/
theorem isCoprime_generator_X_pow_sub_one : IsCoprime generator (X ^ 32 - 1) := by
  have hpow : (X - C 1 : (ZMod 2)[X]) ^ 2 ^ 5 = X ^ 32 - 1 := by
    rw [sub_pow_char_pow]
    simp
  have hnot : ¬ (X - C 1) ∣ generator := by
    rw [dvd_iff_isRoot, IsRoot, eval_one_generator]
    decide
  rw [← hpow]
  exact ((irreducible_X_sub_C 1).coprime_iff_not_dvd.mpr hnot).symm.pow_right

/-- 32 steps fix no word but zero, as x^32 - 1 is invertible modulo P(x). -/
theorem crcSteps_32_eq_self_iff (c : Word) : crcSteps 32 c = c ↔ c = 0x00000000#32 := by
  constructor
  case mpr =>
    rintro rfl
    exact (absorbAll_replicate_zero_eq_crcSteps _ 4).symm.trans (absorbAll_replicate_zero 4)
  intro h
  have hmod : (bitPoly c * X ^ 32 - bitPoly c) %ₘ generator = 0 := by
    rw [sub_modByMonic, ← bitPoly_crcSteps, h, bitPoly_modByMonic_generator, sub_self]
  have hdvd : generator ∣ bitPoly c * (X ^ 32 - 1) := by
    rw [mul_sub_one]
    exact (modByMonic_eq_zero_iff_dvd generator_monic).mp hmod
  have hzero : bitPoly c %ₘ generator = 0 :=
    (modByMonic_eq_zero_iff_dvd generator_monic).mpr (isCoprime_generator_X_pow_sub_one.dvd_of_dvd_mul_right hdvd)
  rw [bitPoly_modByMonic_generator, ← bitPoly_zero 32] at hzero
  exact bitPoly_injective hzero

end

/-! ## The four update commands -/

/-- Settles O18: four zero bytes are 32 steps, so they multiply by x^32 modulo P(x). -/
theorem upd4AbsorbsFourBytes : Obligations.Upd4AbsorbsFourBytes := by
  have hzeros (c : Word) : absorbAll c [0x00#8, 0x00#8, 0x00#8, 0x00#8] = crcSteps 32 c :=
    absorbAll_replicate_zero_eq_crcSteps c 4
  refine ⟨fun a s => ⟨decode_encode (.upd4 a), ?_⟩, fun c => ?_, fun c => ?_, by decide⟩
  · rw [exec_upd4, update_eq, lanes_four]
    rfl
  · rw [hzeros, crcSteps_32_eq_self_iff]
  · rw [hzeros, bitPoly_crcSteps]

/-- Settles O15: UPD1 is the update with lane 0. -/
theorem upd1AbsorbsOneByte : Obligations.Upd1AbsorbsOneByte := by
  refine ⟨fun a s => ⟨decode_encode (.upd1 a), ?_⟩, absorb_zero_zero⟩
  rw [exec_upd1, update_eq, lanes_one]
  rfl

/-- Settles O16: lane 1 is one more UPD1. -/
theorem upd2AbsorbsTwoBytes : Obligations.Upd2AbsorbsTwoBytes := by
  refine fun a s => ⟨decode_encode (.upd2 a), ?_, ?_⟩
  · rw [exec_upd2, update_eq, lanes_two]
    rfl
  · rw [exec_upd2, exec_upd1]
    exact next_update_lanes_succ 1 a s

/-- Settles O17: lane 2 is one more UPD1 after lanes 0 and 1. -/
theorem upd3AbsorbsThreeBytes : Obligations.Upd3AbsorbsThreeBytes := by
  refine fun a s => ⟨decode_encode (.upd3 a), ?_, ?_⟩
  · rw [exec_upd3, update_eq, lanes_three]
    rfl
  · rw [exec_upd3, exec_upd1, next_update_lanes_succ 2, next_update_lanes_succ 1]

end Sys2Proof.Proofs
end

section
/-!
PROOFS. The check command CHECK (spec/42_check.md rule R85): the state it leaves, in both branches of the comparison, and its
repetition.
-/
namespace Sys2Proof.Proofs

open Sys2Proof Sys2Proof.Machine

theorem exec_check (a : Word) (s : State) :
    exec (.check a) s = .next (respond (s.crc ^^^ a) (writeStatus (checkStatus s.crc a s.status) s)) := rfl

/-- STATUS after CHECK by its masks: a match sets bits 0 and 1, a mismatch sets bits 0 and 2 and clears bit 1. -/
theorem checkStatus_eq_masks (crc a st : Word) :
    checkStatus crc a st =
      if crc = a then st ||| 0x00000003#32 else (st ||| 0x00000005#32) &&& 0xFFFFFFFD#32 := by
  have hmatch : chkMask ||| matchMask = 0x00000003#32 := by decide
  have hclear : ~~~matchMask = 0xFFFFFFFD#32 := by decide
  have hmismatch : chkMask &&& 0xFFFFFFFD#32 ||| mismMask = 0x00000005#32 &&& 0xFFFFFFFD#32 := by decide
  unfold checkStatus signalMismatch
  split
  · rw [BitVec.or_assoc, hmatch]
  · rw [hclear, BitVec.and_or_distrib_right, BitVec.or_assoc, hmismatch, ← BitVec.and_or_distrib_right]

theorem checkStatus_idempotent (crc a st : Word) : checkStatus crc a (checkStatus crc a st) = checkStatus crc a st := by
  simp only [checkStatus_eq_masks]
  split
  · rw [BitVec.or_assoc, BitVec.or_self]
  · rw [BitVec.and_or_distrib_right, BitVec.and_assoc, BitVec.and_self, ← BitVec.and_or_distrib_right, BitVec.or_assoc,
      BitVec.or_self]

/-- A second CHECK with the same operand finds the same CRC and the same STATUS. -/
theorem check_idempotent {a : Word} {s t u : State} (ht : exec (.check a) s = .next t) (hu : exec (.check a) t = .next u) :
    u = t := by
  cases (exec_check a s).symm.trans ht
  cases (exec_check a _).symm.trans hu
  simp only [respond_crc, respond_status, writeStatus_crc, writeStatus_status, checkStatus_idempotent]
  rfl

/-- Settles O19: the comparison is written to STATUS by masks, and comparing again changes no bit. -/
theorem checkComparesCrc : Obligations.CheckComparesCrc := by
  refine ⟨fun a s => ⟨decode_encode (.check a), ?_, BitVec.xor_eq_zero_iff⟩, fun _ _ _ _ => check_idempotent⟩
  rw [exec_check, checkStatus_eq_masks]
  rfl

end Sys2Proof.Proofs
end

section
/-!
PROOFS. The table, identity and status commands LUTRD, POLY, STAT and CLRST (spec/43_status_and_id.md rules R90 to R93): the
state each leaves, which response a second STAT or CLRST gives, and that CLRST alone clears the sticky bits.
-/
namespace Sys2Proof.Proofs

open Sys2Proof Sys2Proof.Machine Sys2Proof.Safety

/-! ## What each command leaves, in the operations of the state -/

theorem exec_lutrd (a : Word) (s : State) : exec (.lutrd a) s = .next (respond (lut (tableIndex a)) s) := rfl

theorem exec_poly (a : Word) (s : State) : exec (.poly a) s = .next (respond Config.poly s) := rfl

theorem exec_stat (a : Word) (s : State) : exec (.stat a) s = .next (respond (readStatus s) s) := rfl

theorem exec_clrst (a : Word) (s : State) :
    exec (.clrst a) s = .next (respond (readStatus s) (writeStatus clearedStatus s)) := rfl

/-! ## The table and the polynomial -/

theorem lut_zero : lut 0x00#8 = 0x00000000#32 := by decide

/-- LUT[1] is eight steps from x^24: the first seven only shift, and the last one brings x^32, which is the polynomial. -/
theorem lut_one : lut 0x01#8 = Config.poly := by decide

/-- Settles O20: LUTRD only responds, with the entry of its low byte. -/
theorem lutrdReadsTable : Obligations.LutrdReadsTable :=
  ⟨fun a s => ⟨decode_encode (.lutrd a), exec_lutrd a s⟩, lut_zero⟩

/-- Settles O21: POLY only responds, with the polynomial of the configuration. -/
theorem polyRespondsPolynomial : Obligations.PolyRespondsPolynomial :=
  ⟨fun a s => ⟨decode_encode (.poly a), exec_poly a s⟩, lut_one⟩

/-! ## Reading STATUS -/

/-- A command that only responds with STATUS changes nothing when it is repeated: the response is not a part of STATUS. -/
theorem respond_readStatus_idempotent (s : State) :
    respond (readStatus (respond (readStatus s) s)) (respond (readStatus s) s) = respond (readStatus s) s := rfl

/-- Settles O22: STAT only responds, so a second STAT finds the same STATUS. -/
theorem statRespondsStatus : Obligations.StatRespondsStatus := by
  refine ⟨fun a s => ⟨decode_encode (.stat a), exec_stat a s⟩, fun a b s t u ht hu => ?_⟩
  cases (exec_stat a s).symm.trans ht
  cases (exec_stat b _).symm.trans hu
  exact respond_readStatus_idempotent s

/-! ## Clearing STATUS -/

theorem readStatus_of_cleared {s : State} (h : s.status = clearedStatus) : readStatus s = 0x00000000#32 := by
  rw [readStatus, statusRead, h, clearedStatus, BitVec.zero_and]

/-- A second CLRST reads the STATUS the first one cleared. -/
theorem clrst_clrst_rsp {a b : Word} {s t u : State} (ht : exec (.clrst a) s = .next t) (hu : exec (.clrst b) t = .next u) :
    u.rsp = 0x00000000#32 := by
  cases (exec_clrst a s).symm.trans ht
  cases (exec_clrst b _).symm.trans hu
  exact readStatus_of_cleared rfl

/-- MISM and ILL are sticky under every command but CLRST: the others set them or keep them (R12). -/
theorem StatusEffect.sticky {c : Command} {s : State} {v : Word} (h : StatusEffect c s v) (hw : c.word ≠ clrstWord) :
    (mism s.status = true → mism v = true) ∧ (ill s.status = true → ill v = true) := by
  cases h with
  | clrst word => exact absurd word hw
  | check =>
    rw [mism_checkStatus, ill_checkStatus]
    exact ⟨fun hmism => Bool.or_eq_true_iff.mpr (.inl hmism), id⟩
  | crcWriter =>
    rw [mism_clearCheck, ill_clearCheck]
    exact ⟨id, id⟩
  | keeper => exact ⟨id, id⟩
  | illegal =>
    rw [mism_signalIllegal]
    exact ⟨id, fun _ => ill_signalIllegal _⟩

/-- Settles O23: CLRST responds before it clears, and no other command clears a sticky bit. -/
theorem clrstReadsAndClears : Obligations.ClrstReadsAndClears :=
  ⟨fun a s => ⟨decode_encode (.clrst a), exec_clrst a s⟩, fun _ _ _ _ _ => clrst_clrst_rsp,
    fun _ _ _ h => (perform_statusEffect h).sticky⟩

end Sys2Proof.Proofs
end

section
/-!
PROOFS. The two events ILLEGAL and MISMATCH (spec/60_exceptions.md rules R100 and R103): which command raises each, the
syndrome a CHECK responds with, and what an edge that clears MISM must be.
-/
namespace Sys2Proof.Proofs

open Sys2Proof Sys2Proof.Machine Sys2Proof.Safety

/-! ## What raises an event -/

/-- ILLEGAL: ILL rises under a word outside the table and under no other. -/
theorem StatusEffect.ill_rises_iff {c : Command} {s : State} {v : Word} (h : StatusEffect c s v)
    (hs : ill s.status = false) : ill v = true ↔ c.word ∉ legalWords := by
  obtain ⟨-, -, -, hill⟩ := h.fields
  obtain ⟨-, -, hlegal⟩ := clrstWord_class
  rw [hill, hs]
  split_ifs with hclrst hword
  · simp [hclrst, hlegal]
  · simp [hword]
  · simp [hword]

/-- MISMATCH: MISM rises under a CHECK that finds CRC different from its operand and under no other command. -/
theorem StatusEffect.mism_rises_iff {c : Command} {s : State} {v : Word} (h : StatusEffect c s v)
    (hs : mism s.status = false) : mism v = true ↔ c.word = checkWord ∧ s.crc ≠ c.arg := by
  obtain ⟨-, -, hmism, -⟩ := h.fields
  rw [hmism, hs]
  by_cases hcheck : c.word = checkWord
  · simp [hcheck]
  · simp [hcheck]

theorem perform_of_checkWord {c : Command} (s : State) (h : c.word = checkWord) : perform c s = exec (.check c.arg) s := by
  obtain ⟨w, a⟩ := c
  obtain rfl : w = checkWord := h
  exact perform_of_decode_ok s (decode_encode (.check a))

/-- A CHECK responds with the syndrome, whichever branch it takes. -/
theorem perform_checkWord_rsp {c : Command} {s t : State} (h : perform c s = .next t) (hw : c.word = checkWord) :
    t.rsp = s.crc ^^^ c.arg := by
  rw [perform_of_checkWord s hw, exec_check] at h
  cases h
  exact respond_rsp _ _

/-- Settles O26, by the class of the command's word. -/
theorem twoEventsAndTheirCauses : Obligations.TwoEventsAndTheirCauses :=
  ⟨perform_goesOn, fun _ _ _ h =>
    ⟨(perform_statusEffect h).ill_rises_iff, (perform_statusEffect h).mism_rises_iff, perform_checkWord_rsp h⟩⟩

/-! ## What clears MISM -/

/-- An edge that neither resets nor completes a command keeps STATUS. -/
theorem edge_status_of_not_completing {w : Nat} {i : PinsIn} {s t : State} (h : edge w i s = .next t)
    (hr : i.rst = false) (hc : completesAt i s = []) : t.status = s.status := by
  obtain ⟨hr', -, -⟩ | ⟨-, c, -, hc', -⟩ | ⟨-, -, ⟨c, n, -, rfl⟩ | ⟨-, -, rfl⟩ | ⟨-, -, rfl⟩⟩ := edge_inversion h
  · cases hr.symm.trans hr'
  · cases hc.symm.trans hc'
  · exact holdCommand_status n c s
  · exact holdCommand_status w _ s
  · exact idle_status s

/-- MISM falls at an edge only by reset or by the CLRST that completes there: every other command is sticky. -/
theorem edge_clears_mism {w : Nat} {i : PinsIn} {s t : State} (h : edge w i s = .next t) (hs : mism s.status = true)
    (ht : mism t.status = false) : i.rst = true ∨ ∃ c ∈ completesAt i s, c.word = clrstWord := by
  obtain ⟨hr, -, -⟩ | ⟨-, c, -, hc, hperform⟩ | ⟨hr, hc, -⟩ := edge_inversion h
  · exact .inl hr
  · refine .inr ⟨c, hc ▸ List.mem_singleton_self c, ?_⟩
    by_contra hword
    obtain ⟨hsticky, -⟩ := (perform_statusEffect hperform).sticky hword
    cases ht.symm.trans (hsticky hs)
  · rw [edge_status_of_not_completing h hr hc, hs] at ht
    cases ht

theorem mism_checkStatus_of_ne {crc a : Word} (st : Word) (h : crc ≠ a) : mism (checkStatus crc a st) = true := by
  rw [mism_checkStatus, decide_eq_true h, Bool.or_true]

/-- Settles O27: CHECK and CLRST by the STATUS they write, an edge by what it can do. -/
theorem mismatchIsSticky : Obligations.MismatchIsSticky :=
  ⟨fun a s h => ⟨_, exec_check a s, mism_checkStatus_of_ne s.status h, rfl⟩,
    fun _ _ _ _ => edge_clears_mism,
    fun a s => ⟨_, exec_clrst a s, mism_clearedStatus⟩,
    fun _ _ s hr => ⟨_, edge_of_rst s hr, mism_clearedStatus⟩⟩

end Sys2Proof.Proofs
end

section
/-!
PROOFS. Reset (spec/70_reset_and_hazards.md rules R115 and R116): what the block holds and drives after an edge with
rst = 1, and that a command in flight there leaves no trace.
-/
namespace Sys2Proof.Proofs

open Sys2Proof Sys2Proof.Machine Sys2Proof.Safety

/-- While rst is 1 the block is not ready, whatever it holds. -/
theorem outputs_of_rst {r : Bool} (s : State) (h : r = true) :
    outputs r s = { cmdReady := false, rspValid := s.rspValid, rsp := s.rsp } := by
  rw [h]
  rfl

theorem completesAt_of_rst {i : PinsIn} (s : State) (h : i.rst = true) : completesAt i s = [] := by
  simp only [completesAt, h, if_true]

/-- Reset keeps nothing of the block's own state: only the host's program is left. -/
theorem resetBlock_congr {s t : State} (h : s.program = t.program) : resetBlock s = resetBlock t := by
  rw [resetBlock, resetBlock, h]

/-- Settles O47: the edge answers `resetBlock s`, whose STATUS is the one CLRST writes. -/
theorem resetLeavesZeros : Obligations.ResetLeavesZeros := by
  refine ⟨⟨rfl, rfl, rfl, rfl, rfl⟩, fun w i s hr => ⟨resetBlock s, edge_of_rst s hr, resetBlock_crc s, resetBlock_status s,
    resetBlock_rsp s, resetBlock_inFlight s, outputs_of_rst _ hr, ?_⟩⟩
  exact ⟨chk_clearedStatus, matched_clearedStatus, mism_clearedStatus, ill_clearedStatus⟩

/-- Settles O48: a command writes no part of the state that outlives a reset. -/
theorem resetAbandonsCommandInFlight : Obligations.ResetAbandonsCommandInFlight := by
  intro w i s t f hr _ hperform
  obtain ⟨-, hprogram, -⟩ := perform_frame hperform
  have hreset : resetBlock s = resetBlock t := resetBlock_congr hprogram.symm
  refine ⟨completesAt_of_rst s hr, ?_, resetBlock s, edge_of_rst s hr, resetBlock_rspValid s⟩
  rw [edge_of_rst s hr, edge_of_rst t hr, hreset]

end Sys2Proof.Proofs
end

section
/-!
PROOFS. The invariant (spec/10_state.md rules R12 and R13, 30_encoding.md rule R44, 60_exceptions.md rule R104): the relations
between the fields of STATUS under every command, then under every step and every clock edge, and the one event a command
can raise.
-/
namespace Sys2Proof.Proofs

open Sys2Proof Sys2Proof.Machine Sys2Proof.Safety

/-! ## The relations between the fields of STATUS -/

/-- A command either compares, which sets CHK, or clears CHK and MATCH together, or keeps both. -/
theorem StatusEffect.matchImpliesChk {c : Command} {s t : State} (h : StatusEffect c s t.status)
    (hs : MatchImpliesChk s) : MatchImpliesChk t := by
  generalize hv : t.status = v at h
  unfold MatchImpliesChk
  rw [hv]
  cases h with
  | check => exact fun _ => chk_checkStatus _ _ _
  | crcWriter => simp
  | clrst => simp
  | keeper => exact hs
  | illegal => simpa using hs

/-- CHK without MATCH arises only from a CHECK that mismatches, which records it. -/
theorem StatusEffect.mismatchRecorded {c : Command} {s t : State} (h : StatusEffect c s t.status)
    (hs : MismatchRecorded s) : MismatchRecorded t := by
  generalize hv : t.status = v at h
  unfold MismatchRecorded
  rw [hv]
  cases h with
  | check => simp +contextual
  | crcWriter => simp
  | clrst => simp
  | keeper => exact hs
  | illegal => simpa using hs

/-- Every command but CLRST keeps the stored reserved bits. -/
theorem StatusEffect.reserved_of_ne_clrst {c : Command} {s : State} {v : Word} (h : StatusEffect c s v)
    (hw : c.word ≠ clrstWord) : v &&& 0xFFFFFFF0#32 = s.status &&& 0xFFFFFFF0#32 := by
  cases h with
  | check => exact reserved_checkStatus _ _ _
  | crcWriter => exact reserved_clearCheck _
  | clrst word => exact absurd word hw
  | keeper => rfl
  | illegal => exact reserved_signalIllegal _

theorem StatusEffect.reservedClear {c : Command} {s t : State} (h : StatusEffect c s t.status) (hs : ReservedClear s) :
    ReservedClear t := by
  obtain hzero | hkept := h.reserved
  · rw [ReservedClear, hzero, BitVec.zero_and]
  · exact hkept.trans hs

/-- Settles O59, by the class of the command's word. -/
theorem commandsKeepStatusRelations : Obligations.CommandsKeepStatusRelations := fun _ _ _ h =>
  have heffect := perform_statusEffect h
  ⟨heffect.matchImpliesChk, heffect.mismatchRecorded, heffect.reserved_of_ne_clrst⟩

/-! ## The invariant -/

theorem responseAlone_of_not_rspValid {s : State} (h : s.rspValid = false) : ResponseAlone s := fun hs => by
  cases h.symm.trans hs

/-- Performing a command with none in flight keeps the invariant: STATUS by its effect, and none is in flight after it. -/
theorem perform_keeps_inv {c : Command} {s t : State} (hs : Inv s) (hf : s.inFlight = none)
    (h : perform c s = .next t) : Inv t := by
  obtain ⟨hreserved, hmatch, hmismatch, -⟩ := hs
  obtain ⟨hflight, -, -⟩ := perform_frame h
  have heffect := perform_statusEffect h
  exact ⟨heffect.reservedClear hreserved, heffect.matchImpliesChk hmatch, heffect.mismatchRecorded hmismatch,
    fun _ => hflight.trans hf⟩

/-- A change that keeps STATUS and leaves rsp_valid at 0 keeps the invariant. -/
theorem inv_of_status_eq {s t : State} (hs : Inv s) (hstatus : t.status = s.status) (hvalid : t.rspValid = false) :
    Inv t := by
  obtain ⟨hreserved, hmatch, hmismatch, -⟩ := hs
  refine ⟨?_, ?_, ?_, responseAlone_of_not_rspValid hvalid⟩
  · rwa [ReservedClear, hstatus]
  · rwa [MatchImpliesChk, hstatus]
  · rwa [MismatchRecorded, hstatus]

/-- Taking the command in flight away keeps the invariant. -/
theorem inv_without_inFlight {s : State} (hs : Inv s) : Inv { s with inFlight := none } := by
  obtain ⟨hreserved, hmatch, hmismatch, -⟩ := hs
  exact ⟨hreserved, hmatch, hmismatch, fun _ => rfl⟩

theorem inv_resetBlock (s : State) : Inv (resetBlock s) := by
  refine ⟨BitVec.zero_and, fun hmatch => ?_, fun hchk => ?_, responseAlone_of_not_rspValid (resetBlock_rspValid s)⟩
  · cases matched_clearedStatus.symm.trans hmatch
  · cases chk_clearedStatus.symm.trans hchk

/-- Settles O57: a step performs a command with none left in flight, or is idle. -/
theorem stepKeepsInvariant : Obligations.StepKeepsInvariant := by
  intro s t hs h
  obtain ⟨f, -, hperform⟩ | ⟨c, cs, hf, -, hperform⟩ | ⟨-, -, rfl⟩ := step_inversion h
  · exact perform_keeps_inv (inv_without_inFlight hs) rfl hperform
  · exact perform_keeps_inv (s := { s with program := cs }) hs hf hperform
  · exact inv_of_status_eq hs (idle_status s) (idle_rspValid s)

theorem edge_keeps_inv {w : Nat} {i : PinsIn} {s t : State} (hs : Inv s) (h : edge w i s = .next t) : Inv t := by
  obtain ⟨-, -, rfl⟩ | ⟨-, c, -, -, hperform⟩ | ⟨-, -, ⟨c, n, -, rfl⟩ | ⟨-, -, rfl⟩ | ⟨-, -, rfl⟩⟩ := edge_inversion h
  · exact inv_resetBlock s
  · exact perform_keeps_inv (inv_without_inFlight hs) rfl hperform
  · exact inv_of_status_eq hs (holdCommand_status n c s) (holdCommand_rspValid n c s)
  · exact inv_of_status_eq hs (holdCommand_status w _ s) (holdCommand_rspValid w _ s)
  · exact inv_of_status_eq hs (idle_status s) (idle_rspValid s)

/-- Settles O58: an edge resets, performs a command with none left in flight, or keeps STATUS and lowers rsp_valid. -/
theorem edgeKeepsInvariant : Obligations.EdgeKeepsInvariant := by
  refine ⟨fun w i s t => edge_keeps_inv, fun w i s t hr h => ?_⟩
  cases (edge_of_rst s hr).symm.trans h
  exact inv_resetBlock s

/-- Settles O56: a block reset from any state meets the invariant, and the reset state is one. -/
theorem resetMeetsInvariant : Obligations.ResetMeetsInvariant := inv_resetBlock State.reset

/-! ## One event at most -/

/-- ILLEGAL wants a word outside the table, MISMATCH the word of CHECK, which is in it. -/
theorem StatusEffect.not_both_events {c : Command} {s : State} {v : Word} (h : StatusEffect c s v) :
    ¬ (ill s.status = false ∧ mism s.status = false ∧ ill v = true ∧ mism v = true) := by
  rintro ⟨hill, hmism, hill', hmism'⟩
  obtain ⟨hcheck, -⟩ := (h.mism_rises_iff hmism).mp hmism'
  obtain ⟨-, -, hlegal⟩ := checkWord_class
  exact (h.ill_rises_iff hill).mp hill' (hcheck ▸ hlegal)

/-- A command that raises ILLEGAL is the illegal command. -/
theorem eq_illegalCommand_of_ill_rises {c : Command} {s t : State} (h : perform c s = .next t)
    (hs : ill s.status = false) (ht : ill t.status = true) : t = illegalCommand s := by
  have hw := ((perform_statusEffect h).ill_rises_iff hs).mp ht
  cases (perform_of_not_mem_legalWords s hw).symm.trans h
  rfl

/-- A command that raises MISMATCH decodes to CHECK. -/
theorem decode_of_mism_rises {c : Command} {s t : State} (h : perform c s = .next t) (hs : mism s.status = false)
    (ht : mism t.status = true) : ∃ a, decode c = .ok (.check a) := by
  obtain ⟨hw, -⟩ := ((perform_statusEffect h).mism_rises_iff hs).mp ht
  exact ⟨c.arg, decode_of_word_eq (decode_encode (.check 0x00000000#32)) hw⟩

/-- Settles O60: the events have their causes in different words, and an edge with rst = 1 only resets. -/
theorem atMostOneEventPerCommand : Obligations.AtMostOneEventPerCommand :=
  ⟨fun _ _ _ h =>
      ⟨(perform_statusEffect h).not_both_events, eq_illegalCommand_of_ill_rises h, decode_of_mism_rises h⟩,
    fun _ _ s hr => ⟨resetBlock s, edge_of_rst s hr, completesAt_of_rst s hr, resetBlock_inFlight s, ill_clearedStatus,
      mism_clearedStatus⟩⟩

end Sys2Proof.Proofs
end

section
/-!
PROOFS. The decoder's verdicts and the step (spec/30_encoding.md rules R45 to R49, 00_scope.md rules R5 and R6): well-formed
pairs against legal words, the two reasons for a rejection, that everything goes on, and which command a step performs.
-/
namespace Sys2Proof.Proofs

open Sys2Proof Sys2Proof.Machine Sys2Proof.Safety

/-! ## Well-formed, legal and decoded are the same -/

theorem wellFormed_encode : ∀ i : Instr, (encode i).WellFormed
  | .nop a => (Laws.RoundTrip.nop a).1
  | .init a => (Laws.RoundTrip.init a).1
  | .load a => (Laws.RoundTrip.load a).1
  | .read a => (Laws.RoundTrip.read a).1
  | .upd1 a => (Laws.RoundTrip.upd1 a).1
  | .upd2 a => (Laws.RoundTrip.upd2 a).1
  | .upd3 a => (Laws.RoundTrip.upd3 a).1
  | .upd4 a => (Laws.RoundTrip.upd4 a).1
  | .check a => (Laws.RoundTrip.check a).1
  | .lutrd a => (Laws.RoundTrip.lutrd a).1
  | .poly a => (Laws.RoundTrip.poly a).1
  | .stat a => (Laws.RoundTrip.stat a).1
  | .clrst a => (Laws.RoundTrip.clrst a).1

theorem legalWords_eq_map_assignedOpcodes : legalWords = assignedOpcodes.map (BitVec.ofNat 32) := rfl

theorem ofNat_toNat_word (w : Word) : BitVec.ofNat 32 w.toNat = w := by
  rw [BitVec.ofNat_toNat, BitVec.setWidth_eq]

/-- A well-formed word has nothing above its opcode, so it is the assigned opcode as a word. -/
theorem mem_legalWords_of_wellFormed {c : Command} (h : c.WellFormed) : c.word ∈ legalWords := by
  obtain ⟨hrsv, hop⟩ := h
  have hsplit : c.word &&& 0x000000FF#32 = c.word := by
    have hmasks : 0xFFFFFF00#32 ||| 0x000000FF#32 = BitVec.allOnes 32 := by decide
    have hall : c.word &&& 0xFFFFFF00#32 ||| c.word &&& 0x000000FF#32 = c.word := by
      rw [← BitVec.and_or_distrib_left, hmasks, BitVec.and_allOnes]
    rwa [beq_iff_eq.mp hrsv, BitVec.zero_or] at hall
  rw [Command.opAssigned, hsplit, List.contains_iff_mem] at hop
  rw [legalWords_eq_map_assignedOpcodes]
  exact List.mem_map.mpr ⟨c.word.toNat, hop, ofNat_toNat_word c.word⟩

theorem decode_ok_iff_wellFormed (c : Command) : (∃ i, decode c = .ok i) ↔ c.WellFormed := by
  constructor
  · rintro ⟨i, hi⟩
    exact eq_encode_of_decode_ok hi ▸ wellFormed_encode i
  · exact fun h => decode_ok_of_mem_legalWords c.arg c.word (mem_legalWords_of_wellFormed h)

/-! ## The two reasons -/

theorem decode_eq_reservedBitsSet_iff (c : Command) :
    decode c = .error .reservedBitsSet ↔ reservedField c.word ≠ 0#24 := by
  refine ⟨fun h hrsv => ?_, decode_of_reserved⟩
  rw [decode, if_pos hrsv] at h
  split at h <;> cases h

theorem decode_eq_unassignedOpcode_iff (c : Command) :
    decode c = .error .unassignedOpcode ↔ reservedField c.word = 0#24 ∧ c.word ∉ legalWords := by
  constructor
  · refine fun h => ⟨?_, not_mem_legalWords_of_decode_error h⟩
    by_contra hrsv
    cases h.symm.trans (decode_of_reserved hrsv)
  · rintro ⟨hrsv, hw⟩
    cases hd : decode c with
    | ok i => exact absurd (eq_encode_of_decode_ok hd ▸ encode_word_mem_legalWords i) hw
    | error e =>
      cases e with
      | reservedBitsSet => exact absurd hrsv ((decode_eq_reservedBitsSet_iff c).mp hd)
      | unassignedOpcode => rfl

/-- Settles O3: the well-formed words are the legal ones, and a set reserved bit is tested first. -/
theorem decodeRejectsByName : Obligations.DecodeRejectsByName := fun c =>
  ⟨decode_ok_iff_wellFormed c, decode_eq_reservedBitsSet_iff c, decode_eq_unassignedOpcode_iff c⟩

/-- Settles O2: the five legal words are encodings, and the two others are rejected. -/
theorem someWordsDecode : Obligations.SomeWordsDecode :=
  ⟨decode_encode (.load 0x619119D1#32), decode_encode (.upd4 0x5367674F#32), decode_encode (.check 0x96BB864E#32),
    decode_encode (.lutrd 0xFFFFFF80#32), decode_encode (.clrst 0x00000000#32),
    (decode_eq_reservedBitsSet_iff _).mpr (by decide), (decode_eq_unassignedOpcode_iff _).mpr (by decide)⟩

/-! ## Which command a step performs -/

theorem step_of_inFlight {s : State} {f : InFlight} (h : s.inFlight = some f) :
    step s = perform f.command { s with inFlight := none } :=
  step_of_fetch (fetch_of_inFlight h)

theorem step_of_program {s : State} {c : Command} {cs : List Command} (h : s.inFlight = none) (hp : s.program = c :: cs) :
    step s = perform c { s with program := cs } :=
  step_of_fetch (fetch_of_program h hp)

theorem step_of_nothing {s : State} (h : s.inFlight = none) (hp : s.program = []) : step s = .next (idle s) := by
  rw [step, fetch_of_nothing h hp]

/-- Settles O6: a step is `perform` at the state without the command, and `perform` goes by what the command decodes to. -/
theorem stepRunsDecodedCommand : Obligations.StepRunsDecodedCommand := by
  refine ⟨fun s c cs i hf hp hd => ?_, fun s f i hf hd => ?_, fun s c cs e hf hp hd => ?_, fun s f e hf hd => ?_⟩
  · rw [step_of_program hf hp, perform_of_decode_ok _ hd]
  · rw [step_of_inFlight hf, perform_of_decode_ok _ hd]
  · rw [step_of_program hf hp, perform_of_decode_error _ hd]
    rfl
  · rw [step_of_inFlight hf, perform_of_decode_error _ hd]
    rfl

/-- Settles O7: nothing is fetched, so the step is idle. -/
theorem stepWithoutCommandIsIdle : Obligations.StepWithoutCommandIsIdle := fun _ => step_of_nothing

/-- The command issued next is the one the next step performs. -/
theorem step_issueNext (c : Command) (s : State) : step (issueNext c s) = perform c { s with inFlight := none } :=
  step_of_program (issueNext_inFlight c s) (issueNext_program c s)

theorem tableCommand_32 (w : BitVec 32) : tableCommand 32 w.toNat = { word := w, arg := 0x00000000#32 } := by
  have hmod : w.toNat % 2 ^ 32 = w.toNat := Nat.mod_eq_of_lt w.isLt
  rw [tableCommand, hmod, ofNat_toNat_word, Nat.div_eq_of_lt w.isLt]

theorem tableCommand_64 (w : BitVec 64) :
    tableCommand 64 w.toNat = { word := w.extractLsb' 0 32, arg := w.extractLsb' 32 32 } := by
  have hmod : w.toNat % 2 ^ 64 = w.toNat := Nat.mod_eq_of_lt w.isLt
  rw [tableCommand, hmod, BitVec.extractLsb', BitVec.extractLsb', Nat.shiftRight_zero, Nat.shiftRight_eq_div_pow]

/-- Settles O8: the placed command is the head of the host's list, and its two words are the halves of the table word. -/
theorem fetchWordRunsNext : Obligations.FetchWordRunsNext := by
  refine ⟨fun s w => ?_, fun s w => ?_⟩
  · rw [State.withFetchWord, step_issueNext, tableCommand_32]
  · rw [State.withFetchWord, step_issueNext, tableCommand_64]

/-! ## Everything goes on -/

theorem step_goesOn (s : State) : GoesOn (step s) := by
  cases hfetch : fetch s with
  | some p => exact step_of_fetch hfetch ▸ perform_goesOn p.1 p.2
  | none => exact ⟨idle s, by rw [step, hfetch]⟩

theorem edge_goesOn (w : Nat) (i : PinsIn) (s : State) : GoesOn (edge w i s) := by
  unfold edge
  split
  · exact ⟨_, rfl⟩
  · split
    · exact perform_goesOn _ _
    · exact ⟨_, rfl⟩
    · split <;> exact ⟨_, rfl⟩

theorem tick_goesOn (w : Nat) (s : State) : GoesOn (tick w s) := by
  unfold tick
  split <;> exact edge_goesOn _ _ _

/-- Settles O9: everything the block does comes down to `perform`, and every command has a meaning. -/
theorem everyStepGoesOn : Obligations.EveryStepGoesOn := ⟨perform_goesOn, step_goesOn, edge_goesOn, tick_goesOn⟩

/-! ## Steps run the host's list -/

theorem run_succ {M : Host.Core} {s t : M.State} (h : M.step s = .next t) (k : Nat) : M.run (k + 1) s = M.run k t := by
  rw [Host.Core.run, h]

/-- A command leaves the list as it finds it, and does the same whatever the list is. -/
theorem perform_with_program {c : Command} {s t : State} (h : perform c s = .next t) (p : List Command) :
    perform c { s with program := p } = .next { t with program := p } := by
  obtain ⟨hflight, -, -⟩ := perform_frame h
  have hcontext := perform_context c s s.inFlight p s.rsp s.rspValid
  rw [h, andThen] at hcontext
  rw [hcontext, hflight]

/-- Settles O10, by induction on the host's list: each step performs its head. -/
theorem stepsRunIssuedProgram : Obligations.StepsRunIssuedProgram := by
  intro s hf
  generalize hp : s.program = p
  induction p generalizing s with
  | nil =>
    have hs : s = { s with program := [] } := by rw [← hp]
    exact congrArg Host.Outcome.next hs
  | cons c cs ih =>
    obtain ⟨t, ht⟩ := perform_goesOn c { s with program := cs }
    obtain ⟨hflight, hprogram, -⟩ := perform_frame ht
    rw [List.length_cons, run_succ (M := core) ((step_of_program hf hp).trans ht), ih t (hflight.trans hf) hprogram]
    exact (runCommands_cons (perform_with_program ht []) cs).symm

/-! ## Which commands write CRC, and which change nothing when repeated -/

/-- INIT, LOAD and the updates respond with what they write to CRC, and every other legal command keeps CRC. -/
theorem exec_crc {i : Instr} {s t : State} (h : exec i s = .next t) :
    ((encode i).word ∉ crcWriterWords → t.crc = s.crc) ∧ ((encode i).word ∈ crcWriterWords → t.rsp = t.crc) := by
  cases i <;> cases h
  case init | load | upd1 | upd2 | upd3 | upd4 => exact ⟨(absurd (of_decide_eq_true rfl) ·), fun _ => rfl⟩
  case nop | read | check | lutrd | poly | stat | clrst => exact ⟨fun _ => rfl, fun h => absurd h (of_decide_eq_true rfl)⟩

/-- Settles O25: by the command for a legal word; the illegal command keeps CRC. -/
theorem onlyWritersChangeCrc : Obligations.OnlyWritersChangeCrc := by
  intro c s t h
  cases hd : decode c with
  | ok i =>
    rw [perform_of_decode_ok s hd] at h
    exact eq_encode_of_decode_ok hd ▸ exec_crc h
  | error e =>
    rw [perform_of_decode_error s hd] at h
    cases h
    obtain ⟨-, -, hw⟩ := illegalWord_class (not_mem_legalWords_of_decode_error hd)
    exact ⟨fun _ => illegalCommand_crc s, fun hmem => absurd hmem hw⟩

end Sys2Proof.Proofs
end

section
/-!
PROOFS. The CRC (spec/10_state.md rule R15, 41_update.md rules R70 to R72 and R78): the table against its print, Absorb as a
polynomial remainder, and the laws of crc_from: linearity, residue and the detection of a burst of errors.
-/
namespace Sys2Proof.Proofs

open Sys2Proof Sys2Proof.Machine Sys2Proof.Safety

/-! ## The table -/

/-- The n entries of the table from the index `first` on. -/
def tableFrom (first n : Nat) : List Word := (List.range n).map fun k => lut (BitVec.ofNat 8 (first + k))

theorem tableFrom_append (first m n : Nat) : tableFrom first m ++ tableFrom (first + m) n = tableFrom first (m + n) := by
  simp only [tableFrom, List.range_add, List.map_append, List.map_map, Nat.add_assoc]
  rfl

theorem getElem?_tableFrom_zero {n : Nat} (i : Byte) (h : i.toNat < n) : (tableFrom 0 n)[i.toNat]? = some (lut i) := by
  simp [tableFrom, List.getElem?_range h]

theorem printedLut00_eq : printedLut00 = tableFrom 0x00 64 := by decide
theorem printedLut40_eq : printedLut40 = tableFrom 0x40 64 := by decide
theorem printedLut80_eq : printedLut80 = tableFrom 0x80 64 := by decide
theorem printedLutC0_eq : printedLutC0 = tableFrom 0xC0 64 := by decide

theorem printedLut_eq : printedLut = tableFrom 0 256 := by
  rw [printedLut, printedLut00_eq, printedLut40_eq, printedLut80_eq, printedLutC0_eq, tableFrom_append 0 64 64,
    tableFrom_append 0 128 64, tableFrom_append 0 192 64]

theorem topByte_xor (a b : Byte) :
    (a ^^^ b).setWidth 32 <<< 24 = (a.setWidth 32 <<< 24 : Word) ^^^ (b.setWidth 32 <<< 24) := by
  rw [BitVec.setWidth_xor, BitVec.shiftLeft_xor_distrib]

theorem lut_xor (i j : Byte) : lut (i ^^^ j) = lut i ^^^ lut j := by
  rw [lut, lut, lut, topByte_xor, crcSteps_xor]

/-- Settles O32: the print is the table by evaluation of its four quarters, and the table is linear as Step is. -/
theorem lookupTableContents : Obligations.LookupTableContents := by
  refine ⟨fun _ => rfl, fun _ => rfl, fun i => ?_, ?_, lut_xor, lut_zero, lut_one, by decide, by decide⟩
  · rw [printedLut_eq]
    exact getElem?_tableFrom_zero i i.isLt
  · rw [printedLut_eq, tableFrom, List.length_map, List.length_range]

/-! ## Absorb -/

/-- The index of Absorb is the top byte of the accumulator against the byte absorbed. -/
theorem absorb_eq_lut (c : Word) (b : Byte) : absorb c b = (c <<< 8) ^^^ lut (c.extractLsb' 24 8 ^^^ b) := by
  have hindex : (c >>> 24 ^^^ b.setWidth 32).extractLsb' 0 8 = c.extractLsb' 24 8 ^^^ b := by
    ext k hk
    simp [show k < 32 by omega, BitVec.getLsbD_eq_getElem hk]
  rw [absorb, hindex]

/-- Settles O33: the index in its other form, and the worked values by evaluation. -/
theorem absorbByTable : Obligations.AbsorbByTable :=
  ⟨absorb_eq_lut, by decide, by decide, by decide, by decide, by decide⟩

/-- Settles O34: the table holds the eight steps of the top byte, and the other bits are only shifted. -/
theorem absorbBitByBit : Obligations.AbsorbBitByBit := absorb_eq_crcSteps

/-! ## The polynomial remainder -/

section
open Polynomial

theorem bitPoly_topByte (b : Byte) : bitPoly (b.setWidth 32 <<< 24 : Word) = bitPoly b * X ^ 24 := by
  ext k
  rw [coeff_mul_X_pow', coeff_bitPoly, coeff_bitPoly, BitVec.getLsbD_shiftLeft, BitVec.getLsbD_setWidth]
  by_cases hlow : k < 24
  · simp [hlow]
  · by_cases hk : k < 32
    · simp [hlow, hk, show 24 ≤ k by omega, show k - 24 < 32 by omega]
    · simp [hk, BitVec.getLsbD_of_ge b (k - 24) (by omega)]

/-- One byte more: the accumulator moves up by x^8 and the byte enters at x^32, modulo P. -/
theorem bitPoly_absorb (c : Word) (b : Byte) :
    bitPoly (absorb c b) = (bitPoly c * X ^ 8 + bitPoly b * X ^ 32) %ₘ generator := by
  rw [absorb_eq_crcSteps, bitPoly_crcSteps, bitPoly_xor, bitPoly_topByte]
  ring_nf

theorem messagePoly_append_singleton (message : List Byte) (b : Byte) :
    messagePoly (message ++ [b]) = messagePoly message * X ^ 8 + bitPoly b := by
  rw [messagePoly, List.foldl_append]
  rfl

/-- A remainder may be taken before another byte is absorbed or after it. -/
theorem modByMonic_mul_add_modByMonic (p q r : (ZMod 2)[X]) :
    ((p %ₘ generator) * q + r) %ₘ generator = (p * q + r) %ₘ generator := by
  refine modByMonic_eq_of_dvd_sub generator_monic ⟨-(p /ₘ generator) * q, ?_⟩
  linear_combination q * modByMonic_add_div p generator

/-- Settles O35, by induction on the message from its last byte. -/
theorem crcIsPolynomialRemainder : Obligations.CrcIsPolynomialRemainder := by
  intro c message
  induction message using List.reverseRecOn with
  | nil => simp [absorbAll_nil, messagePoly, bitPoly_modByMonic_generator]
  | append_singleton message b ih =>
    rw [absorbAll_append, absorbAll_cons, absorbAll_nil, bitPoly_absorb, ih, modByMonic_mul_add_modByMonic,
      messagePoly_append_singleton, List.length_append, List.length_singleton]
    ring_nf

/-- The places of the ones in the constant. -/
theorem poly_ones : (Finset.range 32).filter (fun k => Config.poly.getLsbD k = true) =
    {26, 23, 22, 16, 12, 11, 10, 8, 7, 5, 4, 2, 1, 0} := by decide

/-- Settles O36: the polynomial of the constant is the sum over its ones. -/
theorem generatorTerms : Obligations.GeneratorTerms := by
  rw [Obligations.GeneratorTerms, generator, bitPoly, ← Finset.sum_filter, poly_ones]
  iterate 13 rw [Finset.sum_insert (by decide)]
  rw [Finset.sum_singleton, pow_one, pow_zero]
  simp only [add_assoc]

end

/-! ## Composition and linearity -/

/-- Settles O37: a fold over the bytes in order, and zero bytes leave a zero accumulator. -/
theorem crcComposesAndSkipsLeadingZeros : Obligations.CrcComposesAndSkipsLeadingZeros :=
  ⟨absorbAll_append, absorbAll_replicate_zero_append⟩

theorem absorb_xor (c d : Word) (a b : Byte) : absorb (c ^^^ d) (a ^^^ b) = absorb c a ^^^ absorb d b := by
  have hswap (u v x y : Word) : (u ^^^ v) ^^^ (x ^^^ y) = (u ^^^ x) ^^^ (v ^^^ y) := by ac_rfl
  rw [absorb_eq_crcSteps, absorb_eq_crcSteps, absorb_eq_crcSteps, ← crcSteps_xor, topByte_xor, hswap]

/-- The CRC is linear in the start value and the message together. -/
theorem absorbAll_xor (c d : Word) {s t : List Byte} (h : s.length = t.length) :
    absorbAll (c ^^^ d) (List.zipWith (· ^^^ ·) s t) = absorbAll c s ^^^ absorbAll d t := by
  induction s generalizing c d t with
  | nil =>
    obtain rfl := List.length_eq_zero_iff.mp h.symm
    rfl
  | cons a s ih =>
    obtain ⟨b, t, rfl⟩ := List.exists_cons_of_length_eq_add_one h.symm
    rw [List.zipWith_cons_cons, absorbAll_cons, absorb_xor, ih _ _ (Nat.succ.inj h)]
    rfl

theorem zipWith_xor_self (s : List Byte) : List.zipWith (· ^^^ ·) s s = List.replicate s.length 0x00#8 := by
  induction s with
  | nil => rfl
  | cons b s ih => rw [List.zipWith_cons_cons, ih, BitVec.xor_self]; rfl

theorem zipWith_xor_replicate_zero (s : List Byte) :
    List.zipWith (· ^^^ ·) (List.replicate s.length 0x00#8) s = s := by
  induction s with
  | nil => rfl
  | cons b s ih => rw [List.length_cons, List.replicate_succ, List.zipWith_cons_cons, ih, BitVec.zero_xor]

/-- Two runs over the same bytes differ by the difference of their start values, shifted through the register. -/
theorem absorbAll_xor_absorbAll (c d : Word) (s : List Byte) :
    absorbAll c s ^^^ absorbAll d s = crcSteps (8 * s.length) (c ^^^ d) := by
  rw [← absorbAll_xor c d rfl, zipWith_xor_self, absorbAll_replicate_zero_eq_crcSteps]

/-- Settles O38: one linearity, with both start values 0 and with the bytes of one message 0. -/
theorem crcIsLinear : Obligations.CrcIsLinear := by
  refine ⟨fun s t h => absorbAll_xor 0#32 0#32 h, fun c s => ?_⟩
  rw [← absorbAll_xor c 0#32 List.length_replicate, zipWith_xor_replicate_zero, BitVec.xor_zero]

/-! ## Residue -/

/-- Absorbing the accumulator's own top byte only shifts it: the index is 0. -/
theorem absorb_topByte (c : Word) : absorb c (c.extractLsb' 24 8) = c <<< 8 := by
  rw [absorb_eq_lut, BitVec.xor_self, lut_zero, BitVec.xor_zero]

theorem extractLsb'_shiftLeft_eight (c : Word) {k : Nat} (hk : k ≤ 16) :
    (c <<< 8).extractLsb' (k + 8) 8 = c.extractLsb' k 8 := by
  ext j hj
  rw [BitVec.getElem_extractLsb', BitVec.getElem_extractLsb', BitVec.getLsbD_shiftLeft]
  simp [show k + 8 + j < 32 by omega, show ¬ k + 8 + j < 8 by omega, show k + 8 + j - 8 = k + j by omega]

/-- Each byte of the accumulator stands at its top when its turn comes, and after four nothing is left. -/
theorem absorbAll_own_bytes (r : Word) :
    absorbAll r [r.extractLsb' 24 8, r.extractLsb' 16 8, r.extractLsb' 8 8, r.extractLsb' 0 8] = 0x00000000#32 := by
  have hbyte1 := extractLsb'_shiftLeft_eight r (k := 16) (by decide)
  have hbyte2 : (r <<< 8 <<< 8).extractLsb' 24 8 = r.extractLsb' 8 8 := by
    rw [extractLsb'_shiftLeft_eight _ (k := 16) (by decide), extractLsb'_shiftLeft_eight _ (k := 8) (by decide)]
  have hbyte3 : (r <<< 8 <<< 8 <<< 8).extractLsb' 24 8 = r.extractLsb' 0 8 := by
    rw [extractLsb'_shiftLeft_eight _ (k := 16) (by decide), extractLsb'_shiftLeft_eight _ (k := 8) (by decide),
      extractLsb'_shiftLeft_eight _ (k := 0) (by decide)]
  rw [absorbAll_cons, absorb_topByte, ← hbyte1, absorbAll_cons, absorb_topByte, ← hbyte2, absorbAll_cons, absorb_topByte,
    ← hbyte3, absorbAll_cons, absorb_topByte, absorbAll_nil, ← BitVec.shiftLeft_add, ← BitVec.shiftLeft_add,
    ← BitVec.shiftLeft_add]
  exact BitVec.shiftLeft_eq_zero le_rfl

/-- Settles O39: the bytes after the message are those of the accumulator it leaves. -/
theorem crcResidueIsZero : Obligations.CrcResidueIsZero := by
  intro c s
  rw [absorbAll_append, absorbAll_own_bytes]

end Sys2Proof.Proofs
end

section
/-!
PROOFS. The CRC one bit at a time (spec/20_memory.md rule R28, 41_update.md rule R78): Absorb as the eight bits of a byte that
enter in order, and the detection of a burst of errors, since bits that enter an accumulator can be read back from it.
-/
namespace Sys2Proof.Proofs

open Sys2Proof Sys2Proof.Machine Sys2Proof.Safety

/-! ## Bits at the top of the accumulator -/

/-- A bit at bit 31 of a word. -/
def topBit (b : Bool) : Word := if b then 0x80000000#32 else 0x00000000#32

/-- Bits from bit 31 of a word downward; from the 33rd on they are dropped. -/
def topWord : List Bool → Word
  | [] => 0x00000000#32
  | b :: bits => topBit b ^^^ topWord bits >>> 1

/-- One bit of a message enters at bit 31, and Step follows (20_memory.md rule R28). -/
def absorbBit (c : Word) (b : Bool) : Word := crcStep (c ^^^ topBit b)

theorem getLsbD_topBit (b : Bool) (k : Nat) : (topBit b).getLsbD k = (decide (k = 31) && b) := by
  cases b with
  | false => simp [topBit]
  | true =>
    have hbit : (0x80000000#32 : Word) = BitVec.twoPow 32 31 := by decide
    simp [topBit, hbit, eq_comm]

theorem getLsbD_topWord (bits : List Bool) {k : Nat} (hk : k < 32) :
    (topWord bits).getLsbD (31 - k) = bits.getD k false := by
  induction bits generalizing k with
  | nil => simp [topWord]
  | cons b bits ih =>
    rw [topWord, BitVec.getLsbD_xor, getLsbD_topBit, BitVec.getLsbD_ushiftRight]
    cases k with
    | zero => simp
    | succ k =>
      have hnext : 1 + (31 - (k + 1)) = 31 - k := by omega
      have hne : decide (31 - (k + 1) = 31) = false := decide_eq_false (by omega)
      rw [hnext, ih (Nat.lt_of_succ_lt hk), hne, Bool.false_and, Bool.false_xor, List.getD_cons_succ]

/-- At most 32 bits are determined by their word. -/
theorem topWord_injective {xs ys : List Bool} (hlen : xs.length = ys.length) (h32 : xs.length ≤ 32)
    (h : topWord xs = topWord ys) : xs = ys := by
  refine List.ext_getElem hlen fun k hx hy => ?_
  have hbit := congrArg (BitVec.getLsbD · (31 - k)) h
  simpa [getLsbD_topWord _ (hx.trans_le h32), hx, hy] using hbit

/-! ## Step by bits -/

/-- While the lowest bit is 0, shifting down and Step cancel: a zero leaves at the top. -/
theorem crcStep_ushiftRight_one {r : Word} (h : r.getLsbD 0 = false) : crcStep (r >>> 1) = r := by
  have htop : (r >>> 1).getLsbD 31 = false := by simp
  rw [crcStep, htop, if_neg Bool.false_ne_true]
  ext k hk
  cases k with
  | zero => simpa using h.symm
  | succ k => simp [Nat.add_comm 1 k, BitVec.getLsbD_eq_getElem hk]

/-- Bits that enter one by one, at most 32, are as many steps from the accumulator with all of them added at its top. -/
theorem foldl_absorbBit {bits : List Bool} (h : bits.length ≤ 32) (c : Word) :
    bits.foldl absorbBit c = crcSteps bits.length (c ^^^ topWord bits) := by
  induction bits generalizing c with
  | nil => exact (BitVec.xor_zero).symm
  | cons b bits ih =>
    have hlow : (topWord bits).getLsbD 0 = false := by
      rw [show 0 = 31 - 31 from rfl, getLsbD_topWord bits (by decide), List.getD_eq_default _ _ (Nat.le_of_lt_succ h)]
    rw [List.foldl_cons, ih (Nat.le_of_succ_le h), absorbBit, List.length_cons, crcSteps_succ, topWord,
      ← BitVec.xor_assoc, crcStep_xor (c ^^^ topBit b), crcStep_ushiftRight_one hlow]

/-- The lowest bit of the polynomial is 1, so a word that Step takes to 0 has lost no bit. -/
theorem crcStep_eq_zero {r : Word} (h : crcStep r = 0x00000000#32) : r = 0x00000000#32 := by
  rw [crcStep] at h
  split at h
  next =>
    have hlow := congrArg (BitVec.getLsbD · 0) h
    exact absurd hlow (by simp [Config.poly])
  next htop =>
    refine BitVec.eq_of_getLsbD_eq fun k hk => ?_
    obtain hk31 | rfl := Nat.lt_or_eq_of_le (Nat.le_of_lt_succ hk)
    · have hbit := congrArg (BitVec.getLsbD · (k + 1)) h
      simpa [show k + 1 < 32 by omega, BitVec.getLsbD_eq_getElem hk] using hbit
    · simpa using htop

theorem crcSteps_injective (n : Nat) : Function.Injective (crcSteps n) := by
  induction n with
  | zero => exact Function.injective_id
  | succ n ih =>
    intro r q h
    refine BitVec.xor_eq_zero_iff.mp (crcStep_eq_zero ?_)
    rw [crcStep_xor, ih h, BitVec.xor_self]

/-! ## Messages by bits -/

theorem messageBits_append (s t : List Byte) : messageBits (s ++ t) = messageBits s ++ messageBits t := List.flatMap_append

theorem messageBits_cons (b : Byte) (s : List Byte) : messageBits (b :: s) = messageBits [b] ++ messageBits s :=
  messageBits_append [b] s

theorem topWord_messageBits_singleton (b : Byte) : topWord (messageBits [b]) = b.setWidth 32 <<< 24 := by
  refine BitVec.eq_of_getLsbD_eq fun k hk => ?_
  have hk' : k = 31 - (31 - k) := by omega
  rw [hk', getLsbD_topWord _ (by omega), BitVec.getLsbD_shiftLeft, BitVec.getLsbD_setWidth]
  interval_cases k <;> simp [messageBits]

theorem absorb_eq_foldl_absorbBit (c : Word) (b : Byte) : absorb c b = (messageBits [b]).foldl absorbBit c := by
  rw [foldl_absorbBit (Nat.le_of_ble_eq_true rfl), topWord_messageBits_singleton, absorb_eq_crcSteps]
  rfl

/-- crc_from is the fold of the message's bits in order. -/
theorem absorbAll_eq_foldl_absorbBit (c : Word) (s : List Byte) : absorbAll c s = (messageBits s).foldl absorbBit c := by
  induction s generalizing c with
  | nil => rfl
  | cons b s ih => rw [absorbAll_cons, ih, messageBits_cons, List.foldl_append, absorb_eq_foldl_absorbBit]

/-- Different accumulators stay different while the same bits enter them. -/
theorem foldl_absorbBit_injective (bits : List Bool) : Function.Injective (bits.foldl absorbBit) := by
  induction bits with
  | nil => exact Function.injective_id
  | cons b bits ih =>
    intro c d h
    have hstep : crcSteps 1 (c ^^^ topBit b) = crcSteps 1 (d ^^^ topBit b) := ih h
    exact (BitVec.xor_left_inj _).mp (crcSteps_injective 1 hstep)

/-- Settles O40: the burst enters equal accumulators, which it leaves different, and they stay so to the end. -/
theorem burstErrorsChangeCrc : Obligations.BurstErrorsChangeCrc := by
  intro c s t before b1 b2 after hs ht hlen h32 hne heq
  rw [absorbAll_eq_foldl_absorbBit, absorbAll_eq_foldl_absorbBit, hs, ht] at heq
  simp only [List.foldl_append] at heq
  have hburst := foldl_absorbBit_injective after heq
  generalize before.foldl absorbBit c = d at hburst
  rw [foldl_absorbBit h32, foldl_absorbBit (hlen.symm.trans_le h32), ← hlen] at hburst
  exact hne (topWord_injective hlen h32 ((BitVec.xor_right_inj _).mp (crcSteps_injective _ hburst)))

end Sys2Proof.Proofs
end

section
/-!
PROOFS. Repeated commands, split messages, resumed computations and pages (spec/20_memory.md rules R30, R32 and R36 to R39,
30_encoding.md rule R50, 40_control.md rule R62): what lists of commands leave in CRC, and the Ogg page such a list checks.
-/
namespace Sys2Proof.Proofs

open Sys2Proof Sys2Proof.Machine Sys2Proof.Safety

/-! ## Commands done twice -/

theorem absorbAll_injective (bytes : List Byte) : Function.Injective (absorbAll · bytes) := by
  intro c d h
  simp only [absorbAll_eq_foldl_absorbBit] at h
  exact foldl_absorbBit_injective _ h

/-- Bytes that every accumulator absorbs without a change would leave the difference of two accumulators as it is. -/
theorem exists_absorbAll_ne {bytes : List Byte} (h : crcSteps (8 * bytes.length) 0x00000001#32 ≠ 0x00000001#32) :
    ∃ c, absorbAll c bytes ≠ c := by
  by_contra! hfixed
  have hdiff := absorbAll_xor_absorbAll 0x00000001#32 0x00000000#32 bytes
  rw [hfixed, hfixed, BitVec.xor_zero] at hdiff
  exact h hdiff.symm

theorem crcSteps_one_ne_one : ∀ n < 4, crcSteps (8 * (n + 1)) 0x00000001#32 ≠ 0x00000001#32 := by decide

/-- An update command is not idempotent: it moves some CRC, and then, as absorbing is injective, the CRC it leaves too. -/
theorem exists_exec_twice_crc_ne {i : Instr} {n : Nat} {a : Word} (hn : n < 4)
    (hi : ∀ s, exec i s = .next (update (lanes (n + 1) a) s)) :
    ∃ s t u : State, exec i s = .next t ∧ exec i t = .next u ∧ u.crc ≠ t.crc := by
  have hmoves := crcSteps_one_ne_one n hn
  rw [← length_lanes (n + 1) a] at hmoves
  obtain ⟨c, hc⟩ := exists_absorbAll_ne hmoves
  exact ⟨{ State.reset with crc := c }, _, _, hi _, hi _, (absorbAll_injective _).ne hc⟩

/-- Settles O28: a response is not read, a second write of CRC overwrites the first, and absorbing moves the CRC on. -/
theorem idempotentCommands : Obligations.IdempotentCommands := by
  refine ⟨fun a i hi s => ?_, fun a i hi s => ?_, fun a i hi => ?_⟩
  · simp only [List.mem_cons, List.not_mem_nil, or_false] at hi
    obtain rfl | rfl | rfl | rfl | rfl := hi <;> exact ⟨_, rfl, rfl, rfl, rfl⟩
  · simp only [List.mem_cons, List.not_mem_nil, or_false] at hi
    obtain rfl | rfl := hi
    · exact ⟨_, exec_init a s, congrArg Host.Outcome.next (respond_writeCrc_overwrites _ _ _ _ s)⟩
    · exact ⟨_, exec_load a s, congrArg Host.Outcome.next (respond_writeCrc_overwrites _ _ _ _ s)⟩
  · simp only [List.mem_cons, List.not_mem_nil, or_false] at hi
    obtain rfl | rfl | rfl | rfl := hi
    · exact exists_exec_twice_crc_ne (n := 0) (by decide) (exec_upd1 a)
    · exact exists_exec_twice_crc_ne (n := 1) (by decide) (exec_upd2 a)
    · exact exists_exec_twice_crc_ne (n := 2) (by decide) (exec_upd3 a)
    · exact exists_exec_twice_crc_ne (n := 3) (by decide) (exec_upd4 a)

/-! ## Lists of commands -/

theorem runCommands_append {cs : List Command} {s t : State} (h : runCommands cs s = .next t) (ds : List Command) :
    runCommands (cs ++ ds) s = runCommands ds t := by
  induction cs generalizing s with
  | nil =>
    cases h
    rfl
  | cons c cs ih =>
    obtain ⟨u, hu⟩ := perform_goesOn c s
    rw [runCommands_cons hu] at h
    rw [List.cons_append, runCommands_cons hu, ih h]

theorem runCommands_goesOn (cs : List Command) (s : State) : GoesOn (runCommands cs s) := by
  obtain ⟨t, -, -, hrun, -⟩ := observe_append cs [] s
  exact ⟨t, hrun⟩

/-- A legal command at the head of a list has the effect of its rule. -/
theorem runCommands_encode_cons {i : Instr} {s t : State} (h : exec i s = .next t) (cs : List Command) :
    runCommands (encode i :: cs) s = runCommands cs t :=
  runCommands_cons ((perform_of_decode_ok s (decode_encode i)).trans h) cs

/-- Settles O41: a run of updates leaves the CRC of its bytes, and the two runs have the same bytes. -/
theorem splitIsInvisible : Obligations.SplitIsInvisible := by
  intro xs ys s hxs hys hbytes
  obtain ⟨t, ht, htcrc⟩ := runCommands_map_encode_crc hxs s
  obtain ⟨u, hu, hucrc⟩ := runCommands_map_encode_crc hys s
  exact ⟨t, u, ht, hu, by rw [htcrc, hucrc, hbytes], htcrc⟩

/-- A LOAD and updates after it leave the CRC of their bytes from the value loaded. -/
theorem runCommands_load_updb (v : Word) (bytes : List Byte) (s : State) :
    ∃ t : State, runCommands (encode (.load v) :: (updb bytes).map encode) s = .next t ∧ t.crc = absorbAll v bytes := by
  rw [runCommands_encode_cons (exec_load v s)]
  exact runCommands_updb bytes _

/-- INIT, updates and SAVE respond with the CRC of the bytes. -/
theorem runCommands_init_updb_save (bytes : List Byte) (s : State) : ∃ r : State,
    runCommands (assemble [.command (.init 0x00000000#32), .updb bytes, .save]) s = .next r ∧
    r.rsp = absorbAll 0x00000000#32 bytes := by
  obtain ⟨t, hrun, hcrc⟩ := runCommands_updb bytes (respond 0x00000000#32 (writeCrc 0x00000000#32 s))
  refine ⟨respond t.crc t, ?_, hcrc⟩
  change runCommands (encode (.init 0x00000000#32) :: (expandLine (.updb bytes) ++ [encode (.read 0x00000000#32)])) s = _
  rw [runCommands_encode_cons (exec_init _ s), runCommands_append hrun, runCommands_encode_cons (exec_read _ t)]
  rfl

/-- Settles O42: RESTORE loads the CRC that SAVE responded with, so nothing done in between counts. -/
theorem loadResumesComputation : Obligations.LoadResumesComputation := by
  refine ⟨fun pre post between s => ?_, fun c earlier later s => ?_⟩
  · obtain ⟨r, hsave, hrsp⟩ := runCommands_init_updb_save pre s
    obtain ⟨u, hbetween⟩ := runCommands_goesOn between r
    obtain ⟨t, hresume, hcrc⟩ := runCommands_load_updb r.rsp post u
    refine ⟨r, t, hsave, ?_, by rw [hcrc, hrsp, absorbAll_append]⟩
    rw [runCommands_append hbetween, ← hresume, assemble, List.flatMap_cons, List.flatMap_singleton]
    rfl
  · rw [absorbAll_append]
    exact runCommands_load_updb _ later s

/-! ## The host's check of a page -/

/-- The lines that compute the checksum of a page leave it in CRC. -/
theorem runCommands_checksumLines (page : List Byte) (s : State) : ∃ t : State,
    runCommands (assemble (checksumLines page)) s = .next t ∧ t.crc = pageChecksum page := by
  obtain ⟨t, ht, htcrc⟩ := runCommands_updb (page.take 22) (respond 0x00000000#32 (writeCrc 0x00000000#32 s))
  obtain ⟨u, hu, hucrc⟩ := runCommands_updb (page.drop 26) (update (lanes 4 0x00000000#32) t)
  have hzeros : lanes 4 0x00000000#32 = [0x00#8, 0x00#8, 0x00#8, 0x00#8] := by decide
  refine ⟨u, ?_, ?_⟩
  · change runCommands (encode (.init 0x00000000#32) :: (expandLine (.updb (page.take 22)) ++
      (encode (.upd4 0x00000000#32) :: (expandLine (.updb (page.drop 26)) ++ [])))) s = _
    rw [runCommands_encode_cons (exec_init _ s), runCommands_append ht, runCommands_encode_cons (exec_upd4 _ t),
      List.append_nil, hu]
  · rw [hucrc, update_crc, htcrc, hzeros, pageChecksum, zeroCrcField, absorbAll_append, absorbAll_append]
    rfl

/-- Settles O45: the checksum stands in CRC when CHECK compares it with the stored CRC. -/
theorem pageCheckDecidesAcceptance : Obligations.PageCheckDecidesAcceptance := by
  intro page s
  obtain ⟨u, hu, hcrc⟩ := runCommands_checksumLines page s
  refine ⟨respond (u.crc ^^^ storedCrcOf page) (writeStatus (checkStatus u.crc (storedCrcOf page) u.status) u), ?_, hcrc,
    congrArg (· ^^^ storedCrcOf page) hcrc, chk_checkStatus _ _ _, ?_, ?_, fun hbad => ?_⟩
  · rw [pageCheck, assemble, List.flatMap_append]
    exact (runCommands_append hu _).trans (runCommands_encode_cons (exec_check (storedCrcOf page) u) [])
  · rw [respond_rsp, hcrc, BitVec.xor_eq_zero_iff]
  · rw [respond_status, writeStatus_status, matched_checkStatus, hcrc, decide_eq_true_iff]
  · exact mism_checkStatus_of_ne _ (hcrc.trans_ne hbad)

/-! ## A changed byte -/

theorem messageBits_singleton_injective {b v : Byte} (h : messageBits [b] = messageBits [v]) : b = v := by
  refine BitVec.eq_of_getLsbD_eq fun k hk => ?_
  simp only [messageBits, List.flatMap_singleton, List.cons.injEq] at h
  obtain ⟨h7, h6, h5, h4, h3, h2, h1, h0, -⟩ := h
  interval_cases k <;> assumption

theorem length_messageBits_singleton (b : Byte) : (messageBits [b]).length = 8 := rfl

/-- A message with one byte changed has another CRC: the byte is a burst of eight bits. -/
theorem absorbAll_set_ne (c : Word) {bytes : List Byte} {k : Nat} {v : Byte} (hk : k < bytes.length)
    (hv : bytes[k]? ≠ some v) : absorbAll c bytes ≠ absorbAll c (bytes.set k v) := by
  have hsplit : bytes = bytes.take k ++ bytes[k] :: bytes.drop (k + 1) := by
    rw [List.getElem_cons_drop, List.take_append_drop]
  have hbits (b : Byte) : messageBits (bytes.take k ++ b :: bytes.drop (k + 1)) =
      messageBits (bytes.take k) ++ messageBits [b] ++ messageBits (bytes.drop (k + 1)) := by
    rw [messageBits_append, messageBits_cons, List.append_assoc]
  have hne : messageBits [bytes[k]] ≠ messageBits [v] := fun h =>
    hv ((List.getElem?_eq_getElem hk).trans (congrArg some (messageBits_singleton_injective h)))
  refine burstErrorsChangeCrc c bytes (bytes.set k v) (messageBits (bytes.take k)) (messageBits [bytes[k]])
    (messageBits [v]) (messageBits (bytes.drop (k + 1))) ?_ ?_
    ((length_messageBits_singleton _).trans (length_messageBits_singleton _).symm)
    ((length_messageBits_singleton _).trans_le (by decide)) hne
  · rw [← hbits, ← hsplit]
  · rw [← hbits, List.set_eq_take_append_cons_drop, if_pos hk]

theorem storedCrcOf_set {page : List Byte} {k : Nat} (v : Byte) (hk : k < 22 ∨ 26 ≤ k) :
    storedCrcOf (page.set k v) = storedCrcOf page := by
  have hfield : ((page.set k v).drop 22).take 4 = (page.drop 22).take 4 := by
    refine List.ext_getElem? fun j => ?_
    simp only [List.getElem?_take, List.getElem?_drop]
    split
    · rw [List.getElem?_set_ne (by omega)]
    · rfl
  rw [storedCrcOf, storedCrcOf, hfield]

/-- The bytes under the checksum: 0 in the CRC field, elsewhere the page's own. -/
theorem getElem?_zeroCrcField {page : List Byte} (hlen : 26 ≤ page.length) (k : Nat) :
    (zeroCrcField page)[k]? = if k < 22 ∨ 26 ≤ k then page[k]? else some 0x00#8 := by
  have hzeros : [0x00#8, 0x00#8, 0x00#8, 0x00#8] = List.replicate 4 0x00#8 := rfl
  rw [zeroCrcField, hzeros, List.append_assoc, List.getElem?_append, List.getElem?_append, List.getElem?_take,
    List.getElem?_replicate, List.getElem?_drop, List.length_take_of_le (by omega), List.length_replicate]
  obtain hbelow | hfrom := Nat.lt_or_ge k 22
  · rw [if_pos hbelow, if_pos hbelow, if_pos (.inl hbelow)]
  rw [if_neg hfrom.not_gt]
  obtain hinside | habove := Nat.lt_or_ge k 26
  · have hk : k - 22 < 4 := by omega
    rw [if_pos hk, if_pos hk, if_neg (by omega)]
  · rw [if_neg (by omega), if_pos (.inr habove), show 26 + (k - 22 - 4) = k by omega]

theorem length_zeroCrcField {page : List Byte} (hlen : 26 ≤ page.length) : (zeroCrcField page).length = page.length := by
  simp [zeroCrcField]
  omega

theorem zeroCrcField_set {page : List Byte} {k : Nat} (v : Byte) (hlen : 26 ≤ page.length) (hk : k < 22 ∨ 26 ≤ k) :
    zeroCrcField (page.set k v) = (zeroCrcField page).set k v := by
  refine List.ext_getElem? fun j => ?_
  rw [getElem?_zeroCrcField (hlen.trans_eq List.length_set.symm), List.getElem?_set, List.getElem?_set,
    getElem?_zeroCrcField hlen, length_zeroCrcField hlen]
  by_cases hj : k = j
  · subst hj
    rw [if_pos hk, if_pos rfl, if_pos rfl]
  · rw [if_neg hj, if_neg hj]

/-- Settles O46: the stored CRC stays and the checksum does not. -/
theorem changedByteIsRejected : Obligations.ChangedByteIsRejected := by
  intro page k v hlen hk houtside hv hgood hbad
  rw [PageAccepted, storedCrcOf_set v houtside, ← hgood, pageChecksum, zeroCrcField_set v hlen houtside] at hbad
  exact absorbAll_set_ne _ (hk.trans_eq (length_zeroCrcField hlen).symm)
    (((getElem?_zeroCrcField hlen k).trans (if_pos houtside)).trans_ne hv) hbad.symm

/-! ## The layout of a page -/

theorem length_littleEndian (n : Nat) (v : BitVec (8 * n)) : (littleEndian n v).length = n := by
  rw [littleEndian, List.length_map, List.length_range]

/-- A little-endian field of four bytes is the operand whose lanes they are. -/
theorem packLanes_littleEndian_four (v : Word) : packLanes (littleEndian 4 v) = v := by
  change packLanes [v.extractLsb' 0 8, v.extractLsb' 8 8, v.extractLsb' 16 8, v.extractLsb' 24 8] = v
  rw [packLanes_four]
  ext k hk
  interval_cases k <;> simp

/-- The bytes before the stored CRC (20_memory.md rule R36). -/
def beforeCrc (p : Page) : List Byte :=
  capturePattern ++ ([0x00#8] ++ ([p.flags] ++ (littleEndian 8 p.granule ++ (littleEndian 4 p.serial ++
    littleEndian 4 p.sequenceNumber))))

/-- The bytes after the stored CRC. -/
def afterCrc (p : Page) : List Byte := BitVec.ofNat 8 p.segments.length :: (p.segments ++ p.body)

theorem pageBytes_eq (p : Page) : pageBytes p = beforeCrc p ++ (littleEndian 4 p.storedCrc ++ afterCrc p) := by
  simp [pageBytes, beforeCrc, afterCrc]

theorem length_beforeCrc (p : Page) : (beforeCrc p).length = 22 := by
  simp [beforeCrc, length_littleEndian, capturePattern]

theorem length_pageBytes (p : Page) : (pageBytes p).length = 27 + p.segments.length + p.body.length := by
  simp [pageBytes_eq, length_beforeCrc, length_littleEndian, afterCrc]
  omega

/-- 255 segments of 255 bytes are the most a page holds. -/
theorem length_body_le {p : Page} (h : PageFits p) : p.body.length ≤ 255 * 255 := by
  obtain ⟨hsegments, hbody⟩ := h
  have hsize : ∀ n ∈ p.segments.map BitVec.toNat, n ≤ 255 := by
    intro n hn
    obtain ⟨b, -, rfl⟩ := List.mem_map.mp hn
    exact Nat.le_of_lt_succ b.isLt
  have hsum := List.sum_le_card_nsmul _ _ hsize
  rw [List.length_map, ← hbody, smul_eq_mul] at hsum
  exact hsum.trans (Nat.mul_le_mul_right 255 hsegments)

theorem drop_26_pageBytes (p : Page) : (pageBytes p).drop 26 = afterCrc p := by
  rw [pageBytes_eq, ← List.append_assoc]
  exact List.drop_left' (by rw [List.length_append, length_beforeCrc, length_littleEndian])

theorem storedCrcOf_pageBytes (p : Page) : storedCrcOf (pageBytes p) = p.storedCrc := by
  rw [storedCrcOf, pageBytes_eq, List.drop_left' (length_beforeCrc p), List.take_left' (length_littleEndian 4 _),
    packLanes_littleEndian_four]

/-- The checksum is that of the page whose stored CRC is 0. -/
theorem zeroCrcField_pageBytes (p : Page) : zeroCrcField (pageBytes p) = pageBytes { p with storedCrc := 0x00000000#32 } := by
  have hzeros : littleEndian 4 0x00000000#32 = [0x00#8, 0x00#8, 0x00#8, 0x00#8] := by decide
  rw [zeroCrcField, drop_26_pageBytes, pageBytes_eq, List.take_left' (length_beforeCrc p), pageBytes_eq, hzeros,
    List.append_assoc]
  rfl

/-- Settles O44: the first 27 bytes stand at fixed offsets and are evaluated, whatever segments and body follow. -/
theorem pageLayoutAndStoredCrc : Obligations.PageLayoutAndStoredCrc := by
  intro p hfits
  have hlength := length_pageBytes p
  have hbody := length_body_le hfits
  obtain ⟨hsegments, -⟩ := hfits
  refine ⟨hlength, by omega, rfl, rfl, rfl, fun k hk => ?granule, fun k hk => ?serial, fun k hk => ?sequenceNumber,
    fun k hk => ?storedCrc, rfl, congrArg (List.drop 1) (drop_26_pageBytes p), storedCrcOf_pageBytes p,
    congrArg (absorbAll Config.initialValue) (zeroCrcField_pageBytes p)⟩
  case granule | serial | sequenceNumber | storedCrc => interval_cases k <;> rfl

end Sys2Proof.Proofs
end

section
/-!
PROOFS. The block at its pins (spec/30_encoding.md rule R44, 70_reset_and_hazards.md rules R117, R119 and R121): when a command
is accepted, what an edge changes, and that edges in which commands complete do what performing these commands does.
-/
namespace Sys2Proof.Proofs

open Sys2Proof Sys2Proof.Machine Sys2Proof.Safety

/-! ## Readiness and acceptance -/

theorem cmdReady_iff (r : Bool) (s : State) : (outputs r s).cmdReady = true ↔ r = false ∧ s.inFlight = none := by
  simp [outputs]

theorem accepts_iff (i : PinsIn) (s : State) :
    accepts i s = true ↔ i.rst = false ∧ i.cmdValid = true ∧ (outputs i.rst s).cmdReady = true := by
  rw [accepts, Bool.and_eq_true_iff, cmdReady_iff]
  tauto

/-- An accepted command is held from the next cycle on. -/
theorem edge_of_accepts {w : Nat} {i : PinsIn} {s : State} (h : accepts i s = true) :
    edge w i s = .next (holdCommand w { word := i.cmd, arg := i.arg } s) := by
  obtain ⟨hrst, hvalid, hready⟩ := (accepts_iff i s).mp h
  obtain ⟨-, hflight⟩ := (cmdReady_iff _ s).mp hready
  exact edge_accepting hrst hflight hvalid

/-- An edge at which nothing is accepted looks at rst alone. -/
theorem edge_eq_of_not_accepts {v w : Nat} {i j : PinsIn} {s : State} (hrst : i.rst = j.rst) (hi : accepts i s = false)
    (hj : accepts j s = false) : edge v i s = edge w j s := by
  cases hr : j.rst with
  | true => rw [edge_of_rst s (hrst.trans hr), edge_of_rst s hr]
  | false =>
    cases hf : s.inFlight with
    | some f =>
      obtain ⟨c, n⟩ := f
      cases n with
      | zero => rw [edge_completing (hrst.trans hr) hf, edge_completing hr hf]
      | succ n => rw [edge_waiting (hrst.trans hr) hf, edge_waiting hr hf]
    | none =>
      have hidle {k : PinsIn} (hk : k.rst = false) (h : accepts k s = false) : k.cmdValid = false := by
        simpa [accepts, outputs, hk, hf] using h
      rw [edge_idle (hrst.trans hr) hf (hidle (hrst.trans hr) hi), edge_idle hr hf (hidle hr hj)]

/-- Settles O51: an edge that accepts holds the command, and any other is decided by rst and the command in flight. -/
theorem pinsSampledOnlyAtAcceptance : Obligations.PinsSampledOnlyAtAcceptance :=
  ⟨cmdReady_iff, accepts_iff, fun _ _ _ h => ⟨_, edge_of_accepts h, holdCommand_inFlight _ _ _⟩,
    fun _ _ _ _ _ => edge_eq_of_not_accepts⟩

/-- Settles O49: after reset no command is in flight, so the block is ready when rst is 0. -/
theorem readyAfterReset : Obligations.ReadyAfterReset := by
  intro w v i j s t hi hj h
  cases (edge_of_rst s hi).symm.trans h
  have hready := (cmdReady_iff j.rst (resetBlock s)).mpr ⟨hj, resetBlock_inFlight s⟩
  refine ⟨hready, fun hvalid => ?_⟩
  have haccepts := (accepts_iff j (resetBlock s)).mpr ⟨hj, hvalid, hready⟩
  exact ⟨haccepts, _, edge_of_accepts haccepts, holdCommand_inFlight _ _ _⟩

/-! ## What an edge changes -/

/-- The registers of the block, by which the pins are compared with the commands: time apart. -/
structure SameRegisters (s t : State) : Prop where
  crc : s.crc = t.crc
  status : s.status = t.status
  rsp : s.rsp = t.rsp

theorem edge_sameRegisters_of_not_completing {w : Nat} {i : PinsIn} {s t : State} (h : edge w i s = .next t)
    (hr : i.rst = false) (hc : completesAt i s = []) : SameRegisters t s := by
  obtain ⟨hr', -, -⟩ | ⟨-, c, -, hc', -⟩ | ⟨-, -, ⟨c, n, -, rfl⟩ | ⟨-, -, rfl⟩ | ⟨-, -, rfl⟩⟩ := edge_inversion h
  case inl => cases hr.symm.trans hr'
  case inr.inl => cases hc.symm.trans hc'
  all_goals exact ⟨rfl, rfl, rfl⟩

theorem edge_rspValid_iff {w : Nat} {i : PinsIn} {s t : State} (h : edge w i s = .next t) :
    t.rspValid = true ↔ completesAt i s ≠ [] := by
  obtain ⟨-, hc, rfl⟩ | ⟨-, c, -, hc, hperform⟩ | ⟨-, hc, ⟨c, n, -, rfl⟩ | ⟨-, -, rfl⟩ | ⟨-, -, rfl⟩⟩ := edge_inversion h
  case inr.inl =>
    obtain ⟨-, -, hvalid⟩ := perform_frame hperform
    simp [hc, hvalid]
  all_goals simp [hc]

theorem edge_program {w : Nat} {i : PinsIn} {s t : State} (h : edge w i s = .next t) : t.program = s.program := by
  obtain ⟨-, -, rfl⟩ | ⟨-, c, -, -, hperform⟩ | ⟨-, -, ⟨c, n, -, rfl⟩ | ⟨-, -, rfl⟩ | ⟨-, -, rfl⟩⟩ := edge_inversion h
  case inr.inl =>
    obtain ⟨-, hprogram, -⟩ := perform_frame hperform
    exact hprogram
  all_goals rfl

/-- Settles O53: by what an edge can do. -/
theorem edgeChangesOnlyAtCompletion : Obligations.EdgeChangesOnlyAtCompletion := fun _ _ _ _ h =>
  ⟨fun hr hc =>
      have hkept := edge_sameRegisters_of_not_completing h hr hc
      ⟨hkept.crc, hkept.status⟩,
    edge_rspValid_iff h, edge_program h⟩

/-! ## Edges while a command is in flight -/

/-- No command reads rsp_valid. -/
theorem perform_ignores_rspValid (c : Command) (s : State) (b : Bool) : perform c { s with rspValid := b } = perform c s :=
  (perform_context c s s.inFlight s.program s.rsp b).trans
    (perform_context c s s.inFlight s.program s.rsp s.rspValid).symm

/-- A command that was held acts as if it had been performed without: holding it shows only in the fields no command reads. -/
theorem perform_of_held (c d : Command) (n : Nat) (s : State) :
    perform c { holdCommand n d s with inFlight := none } = perform c { s with inFlight := none } :=
  perform_ignores_rspValid c { s with inFlight := none } false

theorem runEdges_cons {w : Nat} {i : PinsIn} {s t : State} (h : edge w i s = .next t) (es : List (Nat × PinsIn)) :
    runEdges ((w, i) :: es) s = runEdges es t := by
  rw [runEdges, h, andThen]

/-- A block that holds a command for m edges more only counts them down. -/
theorem runEdges_holdCommand (es : List (Nat × PinsIn)) (h : ∀ e ∈ es, e.2.rst = false) (m : Nat) (c : Command)
    (s : State) : runEdges es (holdCommand (m + es.length) c s) = .next (holdCommand m c s) := by
  induction es generalizing s with
  | nil => rfl
  | cons e es ih =>
    obtain ⟨hrst, hes⟩ := List.forall_mem_cons.mp h
    exact (runEdges_cons (edge_waiting hrst rfl) es).trans (ih hes s)

/-- A command in flight completes at the edge after its wait, as if it were performed at once. -/
theorem runEdges_of_inFlight {n : Nat} {c : Command} {es : List (Nat × PinsIn)} {s : State}
    (hf : s.inFlight = some { command := c, wait := n }) (hlen : es.length = n + 1) (hrst : ∀ e ∈ es, e.2.rst = false) :
    runEdges es s = perform c { s with inFlight := none } := by
  obtain ⟨e, es, rfl⟩ := List.exists_cons_of_length_eq_add_one hlen
  obtain ⟨he, hes⟩ := List.forall_mem_cons.mp hrst
  induction n generalizing e es s with
  | zero =>
    obtain rfl := List.length_eq_zero_iff.mp (Nat.succ.inj hlen)
    obtain ⟨t, ht⟩ := perform_goesOn c { s with inFlight := none }
    exact (runEdges_cons ((edge_completing he hf).trans ht) []).trans ht.symm
  | succ n ih =>
    obtain ⟨e', es, rfl⟩ := List.exists_cons_of_length_eq_add_one (Nat.succ.inj hlen)
    obtain ⟨he', hes'⟩ := List.forall_mem_cons.mp hes
    rw [← perform_of_held c c n s]
    exact (runEdges_cons (edge_waiting he hf) _).trans
      (ih (holdCommand_inFlight n c s) e' es (Nat.succ.inj hlen) hes he' hes')

/-- Settles O50: the command is held while its wait is counted down, and completes at the edge after. -/
theorem acceptedCommandCompletes : Obligations.AcceptedCommandCompletes := by
  intro w i s es hflight haccepts hrst
  have hidle : { s with inFlight := none } = s := by rw [← hflight]
  refine ⟨fun hlen => ?_, fun hlen => ?_⟩
  · rw [runEdges_cons (edge_of_accepts haccepts), runEdges_of_inFlight (holdCommand_inFlight w _ s) hlen hrst,
      perform_of_held, hidle]
  · obtain ⟨m, rfl⟩ := Nat.exists_eq_add_of_le' hlen
    refine ⟨holdCommand m { word := i.cmd, arg := i.arg } s, ?_, rfl, rfl, rfl⟩
    rw [runEdges_cons (edge_of_accepts haccepts), runEdges_holdCommand es hrst]

/-! ## The host's edges and the step -/

theorem ticks_cons {w : Nat} {s t : State} (h : tick w s = .next t) (ws : List Nat) : ticks (w :: ws) s = ticks ws t := by
  rw [ticks, h, andThen]

theorem hostDrives_rst (s : State) : (hostDrives s).rst = false := by
  unfold hostDrives
  split <;> rfl

/-- While a command is in flight the host's pair is held at the pins. -/
theorem tick_of_inFlight {w : Nat} {s : State} {f : InFlight} (h : s.inFlight = some f) :
    tick w s = edge w (hostDrives s) s := by
  have hnot : accepts (hostDrives s) s = false := by simp [accepts, outputs, h]
  rw [tick, hnot, if_neg Bool.false_ne_true]

/-- An idle block accepts the host's next pair, which is then no longer to be issued. -/
theorem tick_of_program {w : Nat} {s : State} {c : Command} {cs : List Command} (hf : s.inFlight = none)
    (hp : s.program = c :: cs) : tick w s = .next (holdCommand w c { s with program := cs }) := by
  have hpins : hostDrives s = { rst := false, cmdValid := true, cmd := c.word, arg := c.arg } := by rw [hostDrives, hp]
  have haccepts : accepts (hostDrives s) s = true := by simp [accepts, outputs, hpins, hf]
  rw [tick, haccepts, if_pos rfl, hpins, hp]
  exact edge_accepting (s := { s with program := cs }) rfl hf rfl

/-- With the host's edges too a command in flight completes at the edge after its wait. -/
theorem ticks_of_inFlight {n : Nat} {c : Command} {ws : List Nat} {s : State}
    (hf : s.inFlight = some { command := c, wait := n }) (hlen : ws.length = n + 1) :
    ticks ws s = perform c { s with inFlight := none } := by
  obtain ⟨w, ws, rfl⟩ := List.exists_cons_of_length_eq_add_one hlen
  induction n generalizing w ws s with
  | zero =>
    obtain rfl := List.length_eq_zero_iff.mp (Nat.succ.inj hlen)
    obtain ⟨t, ht⟩ := perform_goesOn c { s with inFlight := none }
    have htick := (tick_of_inFlight (w := w) hf).trans (edge_completing (hostDrives_rst s) hf)
    exact (ticks_cons (htick.trans ht) []).trans ht.symm
  | succ n ih =>
    obtain ⟨w', ws, rfl⟩ := List.exists_cons_of_length_eq_add_one (Nat.succ.inj hlen)
    have htick := (tick_of_inFlight (w := w) hf).trans (edge_waiting (hostDrives_rst s) hf)
    rw [← perform_of_held c c n s]
    exact (ticks_cons htick _).trans (ih (holdCommand_inFlight n c s) w' ws (Nat.succ.inj hlen))

/-- Settles O55: a step performs the command in flight at once, and the accepted pair as if it were not held. -/
theorem ticksRefineStep : Obligations.TicksRefineStep := by
  refine ⟨fun s c cs w ws hf hp hlen => ?_, fun s c n ws hf hlen => ?_⟩
  · have hidle : { s with inFlight := none, program := cs } = { s with program := cs } := by rw [← hf]
    rw [ticks_cons (tick_of_program hf hp), ticks_of_inFlight (holdCommand_inFlight w c _) hlen, perform_of_held,
      step_of_program hf hp, hidle]
  · rw [ticks_of_inFlight hf hlen, step_of_inFlight hf]

/-! ## Edges and the commands they complete -/

theorem completed_cons {w : Nat} {i : PinsIn} {s t : State} (h : edge w i s = .next t) (es : List (Nat × PinsIn)) :
    completed ((w, i) :: es) s = completesAt i s ++ completed es t := by
  rw [completed, h]

/-- One edge keeps the two levels together: the command that completes at it, if any, is performed at the other level. -/
theorem edge_refines {w : Nat} {i : PinsIn} {s t v : State} (h : edge w i s = .next t) (hr : i.rst = false)
    (hsame : SameRegisters s v) : ∃ u, runCommands (completesAt i s) v = .next u ∧ SameRegisters t u := by
  obtain ⟨hr', -, -⟩ | ⟨-, c, -, hc, hperform⟩ | ⟨-, hc, -⟩ := edge_inversion h
  · cases hr.symm.trans hr'
  · obtain ⟨u, hu⟩ := perform_goesOn c v
    obtain ⟨hcrc, hstatus, hrsp⟩ := perform_agrees (s := { s with inFlight := none }) hsame.crc hsame.status hperform hu
    exact ⟨u, hc ▸ runCommands_cons hu [], hcrc, hstatus, hrsp⟩
  · have hkept := edge_sameRegisters_of_not_completing h hr hc
    exact ⟨v, hc ▸ rfl, hkept.crc.trans hsame.crc, hkept.status.trans hsame.status, hkept.rsp.trans hsame.rsp⟩

theorem runEdges_refines (es : List (Nat × PinsIn)) {s v : State} (hrst : ∀ e ∈ es, e.2.rst = false)
    (hsame : SameRegisters s v) : ∃ t u : State,
    runEdges es s = .next t ∧ runCommands (completed es s) v = .next u ∧ SameRegisters t u := by
  induction es generalizing s v with
  | nil => exact ⟨s, v, rfl, rfl, hsame⟩
  | cons e es ih =>
    obtain ⟨he, hes⟩ := List.forall_mem_cons.mp hrst
    obtain ⟨s', hedge⟩ := edge_goesOn e.1 e.2 s
    obtain ⟨v', hcompleted, hsame'⟩ := edge_refines hedge he hsame
    obtain ⟨t, u, hrun, hcommands, hagree⟩ := ih hes hsame'
    refine ⟨t, u, (runEdges_cons hedge es).trans hrun, ?_, hagree⟩
    exact (congrArg (runCommands · v) (completed_cons hedge es)).trans ((runCommands_append hcompleted _).trans hcommands)

/-- Settles O54, by induction on the edges: each keeps the registers of the two levels the same. -/
theorem pinsRefineCommands : Obligations.PinsRefineCommands := by
  intro es s hrst
  obtain ⟨t, u, hrun, hcommands, hcrc, hstatus, hrsp⟩ := runEdges_refines es hrst (v := s) ⟨rfl, rfl, rfl⟩
  exact ⟨t, u, hrun, hcommands, hcrc, hstatus, hrsp⟩

end Sys2Proof.Proofs
end
